-- ==== Sys2Proof/Word.lean ====
section
/-! DEFINITION. The word types of the block and nothing else: every value a register, an address or an
instruction field can hold is a bit vector, because the spec adds, shifts and masks it (00_scope.md R22, R23). -/

namespace Sys2Proof

/-- A register value or an address. XLEN is 32 or 64 (00_scope.md R14): a value of XLEN bits is held in 64 bits,
its upper half zero when XLEN is 32 (log entry 4). -/
abbrev Word := BitVec 64

/-- One byte of memory. -/
abbrev Byte := BitVec 8

/-- A 16-bit halfword, the unit of instruction fetch (20_memory.md R151). -/
abbrev Half := BitVec 16

/-- The number of an integer register, a 5-bit field (10_state.md R51). -/
abbrev Reg := BitVec 5

/-- The number of a floating-point register, a 5-bit field (10_state.md R56). -/
abbrev FReg := BitVec 5

/-- A primed register field of a compressed instruction, 3 bits, naming register 8 + field (49_c.md R1001). -/
abbrev CReg := BitVec 3

/-- The number of a control and status register (10_state.md R70). -/
abbrev CsrNum := BitVec 12

end Sys2Proof
end

