-- ==== Sys2Proof/Config.lean ====
section
/-! DEFINITION. What an implementation of the block fixes (00_scope.md R14 to R19) and the free values the spec
leaves open. A free value is an opaque constant: nothing in Lean can evaluate it, so a claim holds for every one. -/

namespace Sys2Proof

/-- The register width, a configuration parameter with two values (00_scope.md R14). -/
inductive Xlen where
  | rv32
  | rv64
  deriving DecidableEq, Repr

/-- XLEN in bits (00_scope.md R14). -/
def Xlen.bits : Xlen → Nat
  | .rv32 => 32
  | .rv64 => 64

/-- The configuration parameters of the block (00_scope.md R14, R16, R19). `State` carries them; no step changes
them (log entry 1). -/
structure Config where
  /-- XLEN (R14). -/
  xlen : Xlen
  /-- EXT_M (R16). -/
  extM : Bool
  /-- EXT_A (R16). -/
  extA : Bool
  /-- EXT_F (R16). -/
  extF : Bool
  /-- EXT_D (R16). -/
  extD : Bool
  /-- EXT_C (R16); it also fixes IALIGN (R17). -/
  extC : Bool
  /-- NSYSCALLS, the size of the host's syscall handler table (R19). -/
  nsyscalls : Nat
  deriving DecidableEq, Repr

/-- EXT_D true requires EXT_F true (00_scope.md R16). -/
def Config.wf (c : Config) : Bool := !c.extD || c.extF

/-- The named hardware, RV32GC or RV64GC: all five extensions present (00_scope.md R16). -/
def Config.gc (xl : Xlen) (nsyscalls : Nat) : Config :=
  { xlen := xl, extM := true, extA := true, extF := true, extD := true, extC := true, nsyscalls := nsyscalls }

/-- FREE VALUE. `TIME` of the n-th draw: a value drawn afresh at each read of `time` or `timeh`, under no law
(00_scope.md R21; 10_state.md R75; log entry 9). -/
opaque Config.timeDraw : Nat → BitVec 64

/-- FREE VALUE. Whether a store that spans two pages, and that the second page refuses, has written the bytes on
the first page when the fault is reported: both outcomes are admitted (20_memory.md R162; log entry 10). -/
opaque Config.splitStoreLands : Nat → Bool

/-- FREE VALUE. Where the free values of a forked child start, given how many its parent has drawn: nothing relates
the draws of the two (70_reset_and_hazards.md R1202; 10_state.md R75; log entry 22). -/
opaque Config.forkDraws : Nat → Nat

end Sys2Proof
end

