-- ==== Sys2Proof/Machine/State.lean ====
section
/-! DEFINITION. The state of the machine: every piece of state 10_state.md R50 gives the block, the memory argument
of 20_memory.md, and what the embedding machine holds and the block reads (10_state.md R90). Plain data. -/

namespace Sys2Proof.Machine

/-- The size of a reservation, 4 or 8 bytes (10_state.md R87). -/
inductive ResSize where
  | word
  | double
  deriving DecidableEq, Repr

/-- A load reservation: an address and a size (10_state.md R87; 46_a.md R731). -/
structure Reservation where
  addr : Word
  size : ResSize
  deriving DecidableEq, Repr

/-- The attributes of a 4096-byte page that an access can see (20_memory.md R173). The attributes is_cow and
is_shared belong to the memory subsystem (00_scope.md R10; log entry 13). -/
structure PageAttr where
  readable : Bool
  writable : Bool
  executable : Bool
  deriving DecidableEq, Repr

/-- The memory argument (00_scope.md R20): its cap (20_memory.md R171), what an access to an unmapped page gets
(R174: `none`, a fault; `some a`, the page is created on first access with attributes `a`), whether a write checks every
byte before it touches any (`true`, as the reference memory of R195: a faulting store writes nothing; `false`, the first
page of a split store is as R162 leaves it), the map of pages by page number (R173) and the bytes that differ from what
an unlisted byte reads as. Both lists have strictly rising keys. -/
structure Memory where
  cap : Nat
  unmapped : Option PageAttr
  checkFirst : Bool
  pages : List (Nat × PageAttr)
  cells : List Host.Cell
  deriving DecidableEq, Repr

/-- The fatal trap kinds, in the order of their codes 0 to 7 (60_exceptions.md R1100). -/
inductive TrapKind where
  | illegalInstruction
  | unimplementedInstruction
  | executionFault
  | readFault
  | writeFault
  | outOfBoundsFault
  | misalignedFault
  | unhandledSyscall
  deriving DecidableEq, Repr

/-- What `simulate` returns (40_cycle.md R365): a fatal kind with its recorded value, or one of the two normal
ends. -/
inductive Result where
  | trap (kind : TrapKind) (value : Word)
  | instructionLimit
  | stopped
  deriving DecidableEq, Repr

/-- Where the machine stands with respect to `simulate`: no call made yet, inside the loop, or returned with a result
(40_cycle.md R360; 60_exceptions.md R1110, R1146). -/
inductive Run where
  | idle
  | running
  | returned (r : Result)
  deriving DecidableEq, Repr

/-- The state of the machine. A register of XLEN bits is held in 64 bits, the upper half zero when XLEN is 32
(log entry 4). -/
structure State where
  /-- The configuration parameters (00_scope.md R14 to R19); no step changes them. -/
  cfg : Config
  /-- The integer registers x0 to x31 (10_state.md R51); x0 reads as zero whatever is held here (R52). -/
  x : Vector (BitVec 64) 32
  /-- The floating-point registers f0 to f31, 64 bits each whatever XLEN is (10_state.md R56). -/
  f : Vector (BitVec 64) 32
  /-- The program counter (10_state.md R60). -/
  pc : Word
  /-- The floating-point control and status register: frm in [7:5], fflags in [4:0] (10_state.md R73). -/
  fcsr : BitVec 8
  /-- The instruction-retired counter (10_state.md R85). -/
  instret : BitVec 64
  /-- The stop flag (10_state.md R86). -/
  stopped : Bool
  /-- The load reservation (10_state.md R87). -/
  reservation : Option Reservation
  /-- The memory argument (00_scope.md R20). -/
  mem : Memory
  /-- The budget `max_instructions` of the current `simulate` (10_state.md R90; 40_cycle.md R360). -/
  budget : BitVec 64
  /-- The numbers for which the host has installed a syscall handler, strictly rising (10_state.md R90). -/
  syscalls : List Nat
  /-- Whether the host has installed a debug-trap handler (10_state.md R90). -/
  debugHandler : Bool
  /-- Where the machine stands with respect to `simulate` (40_cycle.md R360). -/
  run : Run
  /-- THE MODEL'S OWN FIELD, not the spec's: how many free values have been drawn so far (log entry 9). -/
  draws : Nat
  deriving DecidableEq, Repr

/-- The reasons a step can stop with a fault. It has no constructor: the spec's step is a total function
(40_cycle.md R373) and every fatal trap has a stated entry, a next state (60_exceptions.md R1110, R1111; log entry 5),
so no step of the model stops. Nobody raises one; safe. -/
inductive Fault where
  deriving DecidableEq, Repr

/-- The reasons a step can refuse. -/
inductive Refusal where
  /-- Raised by `exec` alone, in the arm of an instruction that has no meaning yet: safe, nothing is claimed of it. No
  arm of this model raises it. -/
  | notModelled (mnemonic : String)
  deriving DecidableEq, Repr

/-- The memory argument of the reset state (log entries 2, 11, 12): cap 2^64, no page mapped, an access to an unmapped
page faults, a write need not check every byte first, no byte listed. -/
def Memory.reset : Memory :=
  { cap := 2 ^ 64, unmapped := none, checkFirst := false, pages := [], cells := [] }

/-- The machine after it is created or `reset()` (10_state.md R95; 70_reset_and_hazards.md R1200): RV64GC, every
register zero, nothing installed, `simulate` not called (log entries 2 and 3). -/
def State.reset : State :=
  { cfg := Config.gc .rv64 512
    x := Vector.replicate 32 0
    f := Vector.replicate 32 0
    pc := 0
    fcsr := 0
    instret := 0
    stopped := false
    reservation := none
    mem := Memory.reset
    budget := 0
    syscalls := []
    debugHandler := false
    run := .idle
    draws := 0 }

end Sys2Proof.Machine
end

