-- ==== Sys2Proof/Machine/Operands.lean ====
section
/-! DEFINITION. Operand forms: values of XLEN bits, their signed and unsigned readings, the immediates, and how an
operation on a width is applied at XLEN or, for the W forms, at 32 bits (00_scope.md R22 to R24; 30_encoding.md R270 to
R276; 41_integer.md). -/

namespace Sys2Proof

/-- The low XLEN bits of a value, as a register holds them: zero above XLEN (00_scope.md R23; log entry 4). -/
def Xlen.narrow (xl : Xlen) (v : Word) : Word :=
  match xl with
  | .rv32 => (v.setWidth 32).setWidth 64
  | .rv64 => v

/-- `unsigned(v)` of an XLEN-bit value (00_scope.md R23). -/
def Xlen.unsigned (xl : Xlen) (v : Word) : Nat := (xl.narrow v).toNat

/-- `signed(v)` of an XLEN-bit value (00_scope.md R23). -/
def Xlen.signed (xl : Xlen) (v : Word) : Int :=
  match xl with
  | .rv32 => (v.setWidth 32).toInt
  | .rv64 => v.toInt

/-- `sext_n(v)`: an n-bit value sign-extended to XLEN bits (00_scope.md R24). -/
def Xlen.sext (xl : Xlen) {n : Nat} (v : BitVec n) : Word := xl.narrow (v.signExtend 64)

/-- `zext_n(v)`: an n-bit value zero-extended to XLEN bits (00_scope.md R24). -/
def Xlen.zext (xl : Xlen) {n : Nat} (v : BitVec n) : Word := xl.narrow (v.setWidth 64)

/-- The immediate of LUI and AUIPC: the 20-bit field in bits 31:12, sign-extended (30_encoding.md R273). -/
def Xlen.immU (xl : Xlen) (imm : BitVec 20) : Word := xl.sext (imm ++ 0#12)

/-- The byte offset of a branch or a jump: the field in units of two bytes, sign-extended (30_encoding.md R272, R274;
49_c.md R1014, R1028 to R1030). -/
def Xlen.offset (xl : Xlen) {n : Nat} (off : BitVec n) : Word := xl.sext (off ++ 0#1)

/-- An operation given for every width. -/
abbrev WidthOp := (w : Nat) → BitVec w → BitVec w → BitVec w

/-- The operation at the width XLEN. -/
def Xlen.lift (xl : Xlen) (op : WidthOp) (a b : Word) : Word :=
  match xl with
  | .rv32 => (op 32 (a.setWidth 32) (b.setWidth 32)).setWidth 64
  | .rv64 => op 64 a b

/-- The operation at 32 bits on the low words, its result sign-extended: the W forms (41_integer.md R400, R422 to R430; 45_m.md R689 to R693). -/
def Xlen.liftW (xl : Xlen) (op : WidthOp) (a b : Word) : Word :=
  xl.sext (op 32 (a.setWidth 32) (b.setWidth 32))

/-- ADD, ADDI and their W forms: the sum modulo 2^w (41_integer.md R403, R412, R422, R426); AMOADD (46_a.md R738). -/
def opAdd : WidthOp := fun _ a b => a + b

/-- SUB and SUBW (41_integer.md R413, R427). -/
def opSub : WidthOp := fun _ a b => a - b

/-- AND and ANDI (41_integer.md R408, R421); AMOAND (46_a.md R740). -/
def opAnd : WidthOp := fun _ a b => a &&& b

/-- OR and ORI (41_integer.md R407, R420); AMOOR (46_a.md R741). -/
def opOr : WidthOp := fun _ a b => a ||| b

/-- XOR and XORI (41_integer.md R406, R417); AMOXOR (46_a.md R739). -/
def opXor : WidthOp := fun _ a b => a ^^^ b

/-- SLT and SLTI: 1 when the signed comparison holds, else 0 (41_integer.md R404, R415). -/
def opSlt : WidthOp := fun w a b => if a.slt b then 1#w else 0#w

/-- SLTU and SLTIU: 1 when the unsigned comparison holds, else 0 (41_integer.md R405, R416). -/
def opSltu : WidthOp := fun w a b => if a.ult b then 1#w else 0#w

/-- SLL, SLLI and their W forms. The amount is the second operand modulo the width of the operation (41_integer.md
R400, R409, R414, R423, R428; 90_conflicts.md C6). -/
def opSll : WidthOp := fun w a b => a <<< (b.toNat % w)

/-- SRL, SRLI and their W forms: zeros shifted in (41_integer.md R410, R418, R424, R429). -/
def opSrl : WidthOp := fun w a b => a >>> (b.toNat % w)

/-- SRA, SRAI and their W forms: copies of the sign shifted in (41_integer.md R411, R419, R425, R430). -/
def opSra : WidthOp := fun w a b => a.sshiftRight (b.toNat % w)

/-- MUL and MULW: the low half of the product (45_m.md R681, R689). -/
def opMul : WidthOp := fun _ a b => a * b

/-- MULH: the high half of the product of the signed operands (45_m.md R682). -/
def opMulh : WidthOp := fun w a b => BitVec.ofInt w (a.toInt * b.toInt / 2 ^ w)

/-- MULHSU: the high half of the product of the signed first and the unsigned second operand (45_m.md R683). -/
def opMulhsu : WidthOp := fun w a b => BitVec.ofInt w (a.toInt * (b.toNat : Int) / 2 ^ w)

/-- MULHU: the high half of the product of the unsigned operands (45_m.md R684). -/
def opMulhu : WidthOp := fun w a b => BitVec.ofNat w (a.toNat * b.toNat / 2 ^ w)

/-- The signed division that overflows: the most negative value by −1 (45_m.md R680, R685). -/
def divOverflows {w : Nat} (a b : BitVec w) : Bool := a == BitVec.intMin w && b == BitVec.allOnes w

/-- DIV and DIVW: the quotient truncated toward zero; all ones when the divisor is zero; the dividend, which is MIN,
on overflow (45_m.md R685, R690). -/
def opDiv : WidthOp := fun w a b =>
  if b = 0#w then BitVec.allOnes w
  else if divOverflows a b then BitVec.intMin w
  else BitVec.ofInt w (a.toInt.tdiv b.toInt)

/-- DIVU and DIVUW: the unsigned quotient; all ones when the divisor is zero (45_m.md R686, R691). -/
def opDivu : WidthOp := fun w a b =>
  if b = 0#w then BitVec.allOnes w else BitVec.ofNat w (a.toNat / b.toNat)

/-- REM and REMW: the remainder with the dividend's sign; the dividend when the divisor is zero; zero on overflow
(45_m.md R687, R692). -/
def opRem : WidthOp := fun w a b =>
  if b = 0#w then a
  else if divOverflows a b then 0#w
  else BitVec.ofInt w (a.toInt - b.toInt * a.toInt.tdiv b.toInt)

/-- REMU and REMUW: the unsigned remainder; the dividend when the divisor is zero (45_m.md R688, R693). -/
def opRemu : WidthOp := fun w a b =>
  if b = 0#w then a else BitVec.ofNat w (a.toNat % b.toNat)

/-- AMOSWAP: the source value (46_a.md R737, R746). -/
def opSwap : WidthOp := fun _ _ b => b

/-- AMOMIN: the signed minimum (46_a.md R742, R751). -/
def opMin : WidthOp := fun _ a b => if a.slt b then a else b

/-- AMOMAX: the signed maximum (46_a.md R743, R752). -/
def opMax : WidthOp := fun _ a b => if b.slt a then a else b

/-- AMOMINU: the unsigned minimum (46_a.md R744, R753). -/
def opMinu : WidthOp := fun _ a b => if a.ult b then a else b

/-- AMOMAXU: the unsigned maximum (46_a.md R745, R754). -/
def opMaxu : WidthOp := fun _ a b => if b.ult a then a else b

end Sys2Proof

namespace Sys2Proof.Machine

/-- The number of bytes of a reservation or of an atomic access (46_a.md R730). -/
def ResSize.bytes : ResSize → Nat
  | .word => 4
  | .double => 8

/-- The value an atomic of this size loads, extended to XLEN: `sext_32` for .W, the identity for .D (46_a.md R730,
R736). -/
def ResSize.extend (xl : Xlen) (sz : ResSize) (v : Word) : Word :=
  match sz with
  | .word => xl.sext (v.setWidth 32)
  | .double => v

/-- The value an AMO of this size stores: the operation on n-byte values (46_a.md R736). -/
def ResSize.combine (sz : ResSize) (op : WidthOp) (t v : Word) : Word :=
  match sz with
  | .word => (op 32 (t.setWidth 32) (v.setWidth 32)).setWidth 64
  | .double => op 64 t v

/-- `unbox_S`: the single-precision value of a 64-bit register value; the canonical NaN unless the upper 32 bits are
all ones (47_f.md R800). -/
def unboxS (v : BitVec 64) : BitVec 32 :=
  if v.extractLsb' 32 32 = BitVec.allOnes 32 then v.setWidth 32 else 0x7FC00000#32

/-- `box_S`: the 64-bit register value of a single-precision result (47_f.md R801). -/
def boxS (r : BitVec 32) : BitVec 64 := BitVec.allOnes 32 ++ r

end Sys2Proof.Machine
end

