-- ==== Sys2Proof/Machine/Flags.lean ====
section
/-! DEFINITION. Every flag the spec gives the machine: the five accrued floating-point exception flags of fcsr
(10_state.md R64, R71; 47_f.md R804), and the dynamic rounding mode beside them (R72; 47_f.md R803). The block has no
integer condition codes (10_state.md R64). -/

namespace Sys2Proof.Machine

/-- A set of floating-point exceptions, in the bit order of fflags (10_state.md R71). -/
abbrev FFlags := BitVec 5

/-- Invalid operation. -/
def flagNV : FFlags := 0x10#5

/-- Division by zero. -/
def flagDZ : FFlags := 0x08#5

/-- Overflow. -/
def flagOF : FFlags := 0x04#5

/-- Underflow. -/
def flagUF : FFlags := 0x02#5

/-- Inexact. -/
def flagNX : FFlags := 0x01#5

/-- The flag if the condition holds, else no flag. -/
def flagIf (c : Bool) (fl : FFlags) : FFlags := if c then fl else 0#5

/-- `fflags`, a view of fcsr[4:0] (10_state.md R71). -/
def State.fflags (s : State) : FFlags := s.fcsr.extractLsb' 0 5

/-- `frm`, a view of fcsr[7:5] (10_state.md R72). -/
def State.frm (s : State) : BitVec 3 := s.fcsr.extractLsb' 5 3

/-- `setflags(fl)`: the flags are accrued; frm is kept (47_f.md R804). -/
def State.setFlags (s : State) (fl : FFlags) : State :=
  { s with fcsr := s.frm ++ (s.fflags ||| fl) }

/-- The rounding modes (10_state.md R72; 47_f.md R803). -/
inductive RoundingMode where
  /-- To nearest, ties to even. -/
  | rne
  /-- Toward zero. -/
  | rtz
  /-- Toward minus infinity. -/
  | rdn
  /-- Toward plus infinity. -/
  | rup
  /-- To nearest, ties away from zero. -/
  | rmm
  deriving DecidableEq, Repr

/-- The mode an encoding names; 0b101, 0b110 and 0b111 name none (10_state.md R72). -/
def RoundingMode.ofBits (b : BitVec 3) : Option RoundingMode :=
  match b.toNat with
  | 0 => some .rne
  | 1 => some .rtz
  | 2 => some .rdn
  | 3 => some .rup
  | 4 => some .rmm
  | _ => none

/-- `RM`, the effective rounding mode of an instruction with an rm field; none when it is reserved (47_f.md R803). -/
def State.roundingMode (s : State) (rm : BitVec 3) : Option RoundingMode :=
  RoundingMode.ofBits (if rm = 0b111#3 then s.frm else rm)

end Sys2Proof.Machine
end

