-- ==== Sys2Proof/Machine/Ops.lean ====
section
/-! DEFINITION. The named operations over registers and memory, taking a trap and the return from one, and how an
instruction completes (10_state.md, 20_memory.md, 40_cycle.md R361 to R363, 60_exceptions.md R1110 to R1112). -/

namespace Sys2Proof.Machine

/-- The three outcomes of a step of this machine. -/
abbrev Out := Host.Outcome State Fault Refusal

/-! ### Registers -/

/-- `x[r]`: x0 reads as zero whatever is stored for it (10_state.md R52). -/
def State.readX (s : State) (r : Reg) : Word :=
  if r = 0#5 then 0#64 else s.cfg.xlen.narrow s.x[r.toNat]

/-- `x[r] <- v`: a write to x0 is discarded (10_state.md R52); the value is kept to XLEN bits. -/
def State.writeX (s : State) (r : Reg) (v : Word) : State :=
  if r = 0#5 then s else { s with x := s.x.set r.toNat (s.cfg.xlen.narrow v) }

/-- `f[r]`, all 64 bits (10_state.md R56). -/
def State.readF (s : State) (r : FReg) : BitVec 64 := s.f[r.toNat]

/-- `f[r] <- v`, all 64 bits; f0 is an ordinary register (10_state.md R56). -/
def State.writeF (s : State) (r : FReg) (v : BitVec 64) : State :=
  { s with f := s.f.set r.toNat v }

/-- The single-precision operand `unbox_S(f[r])` (47_f.md R800). -/
def State.readS (s : State) (r : FReg) : BitVec 32 := unboxS (s.readF r)

/-- `f[r] <- box_S(v)` (47_f.md R801). -/
def State.writeS (s : State) (r : FReg) (v : BitVec 32) : State := s.writeF r (boxS v)

/-- `pc`, the address of the instruction, XLEN bits (10_state.md R60). -/
def State.readPc (s : State) : Word := s.cfg.xlen.narrow s.pc

/-! ### Completion and traps -/

/-- Sequential completion: pc and instret advance (40_cycle.md R361, R363). -/
def State.retire (s : State) (len : Nat) : State :=
  { s with pc := s.cfg.xlen.narrow (s.pc + BitVec.ofNat 64 len), instret := s.instret + 1 }

/-- Completion of a control transfer: pc is the target and instret advances (40_cycle.md R362, R363). -/
def State.jump (s : State) (target : Word) : State :=
  { s with pc := s.cfg.xlen.narrow target, instret := s.instret + 1 }

/-- TAKING A FATAL TRAP (60_exceptions.md R1110 to R1112): the step ends and `simulate` returns the kind and the
recorded value to the host. There is no vector and no saved register; pc stays at the instruction, instret is unchanged
and the instruction has written nothing. -/
def State.trap (s : State) (kind : TrapKind) (value : Word) : State :=
  { s with run := .returned (.trap kind value) }

/-- RETURN FROM A TRAP (60_exceptions.md R1125): there is no guest instruction for it. The host calls `simulate` again,
which clears the stop flag and the counter and retries at pc (40_cycle.md R360, R366). -/
def State.simulate (s : State) (max : BitVec 64) : State :=
  { s with stopped := false, instret := 0, budget := max, run := .running }

/-- Whether `t` is an aligned control-transfer target (42_control.md R500): any when EXT_C is true, else a multiple
of 4. -/
def State.targetOk (s : State) (t : Word) : Bool := s.cfg.extC || t.toNat % 4 == 0

/-- A taken transfer to `t`: the alignment check, then the writes `w`, then the pc (42_control.md R500). -/
def State.transfer (s : State) (t : Word) (w : State → State) : Out :=
  if s.targetOk t then .next ((w s).jump t) else .next (s.trap .misalignedFault t)

/-! ### Lists with rising keys -/

/-- The value at a key. -/
def assocGet {α : Type} (l : List (Nat × α)) (k : Nat) : Option α :=
  match l with
  | [] => none
  | e :: rest => if e.1 = k then some e.2 else assocGet rest k

/-- The list without a key. -/
def assocErase {α : Type} (l : List (Nat × α)) (k : Nat) : List (Nat × α) :=
  l.filter fun e => e.1 != k

/-- The list with a key set, its place in the order kept. -/
def assocInsert {α : Type} (l : List (Nat × α)) (k : Nat) (v : α) : List (Nat × α) :=
  match l with
  | [] => [(k, v)]
  | e :: rest =>
    if k < e.1 then (k, v) :: e :: rest
    else if k = e.1 then (k, v) :: rest
    else e :: assocInsert rest k v

/-! ### Memory -/

/-- What a byte nothing has written reads as (20_memory.md R195; log entry 12). -/
def Memory.unlisted : Byte := 0#8

/-- The byte at an address. -/
def Memory.byte (m : Memory) (b : Nat) : Byte := (assocGet m.cells b).getD Memory.unlisted

/-- The memory with one byte written, in canonical form. -/
def Memory.setByte (m : Memory) (b : Nat) (v : Byte) : Memory :=
  { m with cells := if v = Memory.unlisted then assocErase m.cells b else assocInsert m.cells b v }

/-- The canonical form: rising keys, and no cell that equals what an unlisted address reads as. -/
abbrev Memory.wf (m : Memory) : Prop :=
  m.cells.Pairwise (fun a b => a.1 < b.1) ∧ m.pages.Pairwise (fun a b => a.1 < b.1) ∧
    ∀ c ∈ m.cells, c.2 ≠ Memory.unlisted

/-- The page of a byte address: pages are 4096 bytes (20_memory.md R173). -/
def pageOf (b : Nat) : Nat := b / 4096

/-- The port an access uses (20_memory.md R151). -/
inductive Access where
  | fetch
  | read
  | write
  deriving DecidableEq, Repr

/-- Whether a page's attributes allow the access (20_memory.md R173). -/
def Access.allowed : Access → PageAttr → Bool
  | .fetch, a => a.executable
  | .read, a => a.readable
  | .write, a => a.writable

/-- The kind for a page that refuses the access (20_memory.md R173). -/
def Access.protectKind : Access → TrapKind
  | .fetch => .executionFault
  | .read => .readFault
  | .write => .writeFault

/-- The kind for a page that is not mapped (20_memory.md R174). -/
def Access.unmappedKind : Access → TrapKind
  | .fetch => .executionFault
  | .read => .outOfBoundsFault
  | .write => .outOfBoundsFault

/-- The attributes an access to a page meets: those of the map, else those a page created on first access gets
(20_memory.md R173, R174). -/
def Memory.attr (m : Memory) (p : Nat) : Option PageAttr :=
  match assocGet m.pages p with
  | some a => some a
  | none => m.unmapped

/-- Why the memory refuses an access to one byte, if it does (20_memory.md R171, R173, R174). -/
def Memory.byteRefusal (m : Memory) (acc : Access) (b : Nat) : Option TrapKind :=
  if m.cap ≤ b then some .outOfBoundsFault
  else
    match m.attr (pageOf b) with
    | none => some acc.unmappedKind
    | some a => if acc.allowed a then none else some acc.protectKind

/-- The address of byte `i` of an access at `a`, modulo 2^XLEN (20_memory.md R157). -/
def byteAddr (xl : Xlen) (a : Word) (i : Nat) : Nat := (xl.narrow (a + BitVec.ofNat 64 i)).toNat

/-- The byte addresses of an access of `n` bytes at `a`, in order. -/
def span (xl : Xlen) (a : Word) (n : Nat) : List Nat := (List.range n).map (byteAddr xl a)

/-- The fault of the lowest refused byte of an access (20_memory.md R161, R195). -/
def State.refusal (s : State) (acc : Access) (a : Word) (n : Nat) : Option TrapKind :=
  (span s.cfg.xlen a n).findSome? (s.mem.byteRefusal acc)

/-- The little-endian value of a list of bytes (20_memory.md R155). -/
def littleEndian : List Byte → Word
  | [] => 0#64
  | b :: rest => (littleEndian rest <<< 8) ||| b.setWidth 64

/-- The value of the `n` bytes at `a` (20_memory.md R155). -/
def State.loadValue (s : State) (a : Word) (n : Nat) : Word :=
  littleEndian ((span s.cfg.xlen a n).map s.mem.byte)

/-- The bytes of a store of the low `n` bytes of `v` at `a`, each with its address (20_memory.md R155). -/
def storeCells (xl : Xlen) (a : Word) (n : Nat) (v : Word) : List Host.Cell :=
  (List.range n).map fun i => (byteAddr xl a i, v.extractLsb' (8 * i) 8)

/-- The memory after a list of byte writes. -/
def Memory.writeAll (m : Memory) (ws : List Host.Cell) : Memory :=
  ws.foldl (fun m w => m.setByte w.1 w.2) m

/-- The state after the `n` bytes at `a` are written. -/
def State.storeValue (s : State) (a : Word) (n : Nat) (v : Word) : State :=
  { s with mem := s.mem.writeAll (storeCells s.cfg.xlen a n v) }

/-- Whether an address lies on the page on which the access at `a` starts. -/
def onFirstPage (xl : Xlen) (a : Word) (b : Nat) : Bool := pageOf b == pageOf (byteAddr xl a 0)

/-- A refused store that may have written its first page: the memory does not check every byte before it touches any
(20_memory.md R195), and the first page accepts all its bytes, so that the store spans two pages and the second refuses
it (R162). -/
def State.splitRefused (s : State) (a : Word) (n : Nat) : Bool :=
  !s.mem.checkFirst && ((span s.cfg.xlen a n).filter (onFirstPage s.cfg.xlen a)).all fun b =>
    (s.mem.byteRefusal .write b).isNone

/-- What a refused store leaves (20_memory.md R162): nothing written, except that when the second page alone refuses
it the bytes on the first page may have been written, a free choice (log entry 10). A memory that checks every byte
first writes nothing (R195). -/
def State.refusedStore (s : State) (a : Word) (n : Nat) (v : Word) : State :=
  if s.splitRefused a n then
    { s with
      mem := if Config.splitStoreLands s.draws then
          s.mem.writeAll ((storeCells s.cfg.xlen a n v).filter fun w => onFirstPage s.cfg.xlen a w.1)
        else s.mem
      draws := s.draws + 1 }
  else s

/-- `MemRead(a, n)`, then `k` on the value; a refusal is the trap with value `a` (20_memory.md R151, R161). -/
def State.withRead (s : State) (a : Word) (n : Nat) (k : Word → Out) : Out :=
  match s.refusal .read a n with
  | some kind => .next (s.trap kind a)
  | none => k (s.loadValue a n)

/-- `MemWrite(a, n, v)`, then `k` on the state; a refusal is the trap with value `a` (20_memory.md R151, R161,
R162). -/
def State.withWrite (s : State) (a : Word) (n : Nat) (v : Word) (k : State → Out) : Out :=
  match s.refusal .write a n with
  | some kind => .next ((s.refusedStore a n v).trap kind a)
  | none => k (s.storeValue a n v)

/-- The alignment check of an atomic access (20_memory.md R163; 46_a.md R730). -/
def State.withAligned (s : State) (a : Word) (n : Nat) (k : Out) : Out :=
  if a.toNat % n = 0 then k else .next (s.trap .misalignedFault a)

/-- The effective address `x[rs1] + imm` modulo 2^XLEN (43_loadstore.md R550). -/
def State.ea (s : State) (rs1 : Reg) (imm : Word) : Word := s.cfg.xlen.narrow (s.readX rs1 + imm)

/-! ### Shared shapes of instructions -/

/-- An instruction whose only result is a value for an integer register. -/
def State.setX (s : State) (rd : Reg) (v : Word) (len : Nat) : Out := .next ((s.writeX rd v).retire len)

/-- An instruction whose only result is a value for a floating-point register. -/
def State.setF (s : State) (rd : FReg) (v : BitVec 64) (len : Nat) : Out := .next ((s.writeF rd v).retire len)

end Sys2Proof.Machine
end

