-- ==== Sys2Proof/Machine/Atomic.lean ====
section
/-! DEFINITION. Load-reserved, store-conditional and the atomic memory operations (46_a.md). The bits aq and rl have no
effect a guest can observe (R730). -/

namespace Sys2Proof.Machine

/-- LR: alignment, the read, then the reservation and rd (46_a.md R730 to R732, R734). -/
def State.loadReserved (s : State) (sz : ResSize) (rd rs1 : Reg) : Out :=
  let a := s.readX rs1
  s.withAligned a sz.bytes <| s.withRead a sz.bytes fun v =>
    { s with reservation := some { addr := a, size := sz } }.setX rd (sz.extend s.cfg.xlen v) 4

/-- SC: alignment, then it succeeds exactly when the reservation is its own address and size. The reservation is gone
in every case, a trap of the write included; a failing SC makes no access (46_a.md R730, R731, R733, R735). -/
def State.storeConditional (s : State) (sz : ResSize) (rd rs1 rs2 : Reg) : Out :=
  let a := s.readX rs1
  let u := { s with reservation := none }
  s.withAligned a sz.bytes <|
    if s.reservation = some { addr := a, size := sz } then
      u.withWrite a sz.bytes (s.readX rs2) fun t => t.setX rd 0 4
    else u.setX rd 1 4

/-- AMO: alignment, the read, the write check, then memory and rd (46_a.md R730, R736). The access is aligned, so it
spans no page and a refused write has written nothing. -/
def State.amo (s : State) (sz : ResSize) (op : WidthOp) (rd rs1 rs2 : Reg) : Out :=
  let a := s.readX rs1
  s.withAligned a sz.bytes <| s.withRead a sz.bytes fun t =>
    s.withWrite a sz.bytes (sz.combine op t (s.readX rs2)) fun u => u.setX rd (sz.extend s.cfg.xlen t) 4

/-- LR.W (46_a.md R732). -/
def execLrW (rd rs1 : Reg) (_aq _rl : Bool) (s : State) : Out := s.loadReserved .word rd rs1

/-- SC.W (46_a.md R733). -/
def execScW (rd rs1 rs2 : Reg) (_aq _rl : Bool) (s : State) : Out := s.storeConditional .word rd rs1 rs2

/-- LR.D (46_a.md R734). -/
def execLrD (rd rs1 : Reg) (_aq _rl : Bool) (s : State) : Out := s.loadReserved .double rd rs1

/-- SC.D (46_a.md R735). -/
def execScD (rd rs1 rs2 : Reg) (_aq _rl : Bool) (s : State) : Out := s.storeConditional .double rd rs1 rs2

/-- AMOSWAP.W (46_a.md R737). -/
def execAmoswapW (rd rs1 rs2 : Reg) (_aq _rl : Bool) (s : State) : Out := s.amo .word opSwap rd rs1 rs2

/-- AMOADD.W (46_a.md R738). -/
def execAmoaddW (rd rs1 rs2 : Reg) (_aq _rl : Bool) (s : State) : Out := s.amo .word opAdd rd rs1 rs2

/-- AMOXOR.W (46_a.md R739). -/
def execAmoxorW (rd rs1 rs2 : Reg) (_aq _rl : Bool) (s : State) : Out := s.amo .word opXor rd rs1 rs2

/-- AMOAND.W (46_a.md R740). -/
def execAmoandW (rd rs1 rs2 : Reg) (_aq _rl : Bool) (s : State) : Out := s.amo .word opAnd rd rs1 rs2

/-- AMOOR.W (46_a.md R741). -/
def execAmoorW (rd rs1 rs2 : Reg) (_aq _rl : Bool) (s : State) : Out := s.amo .word opOr rd rs1 rs2

/-- AMOMIN.W (46_a.md R742). -/
def execAmominW (rd rs1 rs2 : Reg) (_aq _rl : Bool) (s : State) : Out := s.amo .word opMin rd rs1 rs2

/-- AMOMAX.W (46_a.md R743). -/
def execAmomaxW (rd rs1 rs2 : Reg) (_aq _rl : Bool) (s : State) : Out := s.amo .word opMax rd rs1 rs2

/-- AMOMINU.W (46_a.md R744). -/
def execAmominuW (rd rs1 rs2 : Reg) (_aq _rl : Bool) (s : State) : Out := s.amo .word opMinu rd rs1 rs2

/-- AMOMAXU.W (46_a.md R745). -/
def execAmomaxuW (rd rs1 rs2 : Reg) (_aq _rl : Bool) (s : State) : Out := s.amo .word opMaxu rd rs1 rs2

/-- AMOSWAP.D (46_a.md R746). -/
def execAmoswapD (rd rs1 rs2 : Reg) (_aq _rl : Bool) (s : State) : Out := s.amo .double opSwap rd rs1 rs2

/-- AMOADD.D (46_a.md R747). -/
def execAmoaddD (rd rs1 rs2 : Reg) (_aq _rl : Bool) (s : State) : Out := s.amo .double opAdd rd rs1 rs2

/-- AMOXOR.D (46_a.md R748). -/
def execAmoxorD (rd rs1 rs2 : Reg) (_aq _rl : Bool) (s : State) : Out := s.amo .double opXor rd rs1 rs2

/-- AMOAND.D (46_a.md R749). -/
def execAmoandD (rd rs1 rs2 : Reg) (_aq _rl : Bool) (s : State) : Out := s.amo .double opAnd rd rs1 rs2

/-- AMOOR.D (46_a.md R750). -/
def execAmoorD (rd rs1 rs2 : Reg) (_aq _rl : Bool) (s : State) : Out := s.amo .double opOr rd rs1 rs2

/-- AMOMIN.D (46_a.md R751). -/
def execAmominD (rd rs1 rs2 : Reg) (_aq _rl : Bool) (s : State) : Out := s.amo .double opMin rd rs1 rs2

/-- AMOMAX.D (46_a.md R752). -/
def execAmomaxD (rd rs1 rs2 : Reg) (_aq _rl : Bool) (s : State) : Out := s.amo .double opMax rd rs1 rs2

/-- AMOMINU.D (46_a.md R753). -/
def execAmominuD (rd rs1 rs2 : Reg) (_aq _rl : Bool) (s : State) : Out := s.amo .double opMinu rd rs1 rs2

/-- AMOMAXU.D (46_a.md R754). -/
def execAmomaxuD (rd rs1 rs2 : Reg) (_aq _rl : Bool) (s : State) : Out := s.amo .double opMaxu rd rs1 rs2

end Sys2Proof.Machine
end

