-- ==== Sys2Proof/Machine/Control.lean ====
section
/-! DEFINITION. Jumps and branches (42_control.md). -/

namespace Sys2Proof.Machine

/-- `x[rd] <- pc + len; pc <- t`, after the alignment check of t (42_control.md R500 to R502). -/
def State.link (s : State) (rd : Reg) (t : Word) (len : Nat) : Out :=
  s.transfer t fun u => u.writeX rd (s.readPc + BitVec.ofNat 64 len)

/-- Jump relative to pc (42_control.md R501). -/
def State.jal (s : State) (rd : Reg) (off : BitVec 20) (len : Nat) : Out :=
  s.link rd (s.cfg.xlen.narrow (s.readPc + s.cfg.xlen.offset off)) len

/-- The target of JALR: bit 0 of the sum is cleared (42_control.md R502). -/
def State.jalrTarget (s : State) (rs1 : Reg) (imm : BitVec 12) : Word :=
  s.ea rs1 (s.cfg.xlen.sext imm) &&& ~~~1#64

/-- Jump to a register plus an immediate (42_control.md R502). -/
def State.jalr (s : State) (rd rs1 : Reg) (imm : BitVec 12) (len : Nat) : Out :=
  s.link rd (s.jalrTarget rs1 imm) len

/-- A conditional branch: taken, the alignment check and the pc; not taken, the sequential advance and no check
(42_control.md R500, R503 to R508). -/
def State.branch (s : State) (taken : Bool) (off : BitVec 12) (len : Nat) : Out :=
  if taken then s.transfer (s.cfg.xlen.narrow (s.readPc + s.cfg.xlen.offset off)) id else .next (s.retire len)

/-- `s(x[rs1]) < s(x[rs2])`. -/
def State.ltX (s : State) (rs1 rs2 : Reg) : Bool :=
  decide (s.cfg.xlen.signed (s.readX rs1) < s.cfg.xlen.signed (s.readX rs2))

/-- `u(x[rs1]) < u(x[rs2])`. -/
def State.ltuX (s : State) (rs1 rs2 : Reg) : Bool :=
  decide (s.cfg.xlen.unsigned (s.readX rs1) < s.cfg.xlen.unsigned (s.readX rs2))

/-- JAL (42_control.md R501). -/
def execJal (rd : Reg) (off : BitVec 20) (s : State) : Out := s.jal rd off 4

/-- JALR (42_control.md R502). -/
def execJalr (rd rs1 : Reg) (imm : BitVec 12) (s : State) : Out := s.jalr rd rs1 imm 4

/-- BEQ (42_control.md R503). -/
def execBeq (rs1 rs2 : Reg) (off : BitVec 12) (s : State) : Out := s.branch (s.readX rs1 == s.readX rs2) off 4

/-- BNE (42_control.md R504). -/
def execBne (rs1 rs2 : Reg) (off : BitVec 12) (s : State) : Out := s.branch (s.readX rs1 != s.readX rs2) off 4

/-- BLT (42_control.md R505). -/
def execBlt (rs1 rs2 : Reg) (off : BitVec 12) (s : State) : Out := s.branch (s.ltX rs1 rs2) off 4

/-- BGE (42_control.md R506). -/
def execBge (rs1 rs2 : Reg) (off : BitVec 12) (s : State) : Out := s.branch (!s.ltX rs1 rs2) off 4

/-- BLTU (42_control.md R507). -/
def execBltu (rs1 rs2 : Reg) (off : BitVec 12) (s : State) : Out := s.branch (s.ltuX rs1 rs2) off 4

/-- BGEU (42_control.md R508). -/
def execBgeu (rs1 rs2 : Reg) (off : BitVec 12) (s : State) : Out := s.branch (!s.ltuX rs1 rs2) off 4

end Sys2Proof.Machine
end

