-- ==== Sys2Proof/Syntax.lean ====
section
/-! DEFINITION. The instruction set as data: one constructor for each row of spec/opcode_table.json, in the
table's order, with the operand fields its format gives it (30_encoding.md R252, R280).

Operands. `rd rs1 rs2 rs3` are register numbers; `rdc rs1c rs2c` are the primed 3-bit fields (49_c.md R1001).
`imm`, `off`, `uimm`, `nzimm`, `nzuimm` and `shamt` hold exactly the live bits of the immediate: `imm` of a
U-format instruction is imm[31:12]; `off` is the offset without its zero bit 0; a compressed load's or store's
`uimm` is the offset without the zero bits of its scale; `nzimm` of C.ADDI16SP is nzimm[9:4] and of C.LUI
nzimm[17:12]; `nzuimm` of C.ADDI4SPN is nzuimm[9:2]. Fields the block does not decode (FENCE, FENCE.I: R301) are
kept as they stand in the word. -/

namespace Sys2Proof

inductive Instr where
  -- Integer computational instructions (41_integer.md)
  /-- `lui`, R401. -/
  | lui (rd : Reg) (imm : BitVec 20)
  /-- `auipc`, R402. -/
  | auipc (rd : Reg) (imm : BitVec 20)
  /-- `addi`, R403. -/
  | addi (rd rs1 : Reg) (imm : BitVec 12)
  /-- `slti`, R404. -/
  | slti (rd rs1 : Reg) (imm : BitVec 12)
  /-- `sltiu`, R405. -/
  | sltiu (rd rs1 : Reg) (imm : BitVec 12)
  /-- `xori`, R406. -/
  | xori (rd rs1 : Reg) (imm : BitVec 12)
  /-- `ori`, R407. -/
  | ori (rd rs1 : Reg) (imm : BitVec 12)
  /-- `andi`, R408. -/
  | andi (rd rs1 : Reg) (imm : BitVec 12)
  /-- `slli`, R409. -/
  | slli (rd rs1 : Reg) (shamt : BitVec 6)
  /-- `srli`, R410. -/
  | srli (rd rs1 : Reg) (shamt : BitVec 6)
  /-- `srai`, R411. -/
  | srai (rd rs1 : Reg) (shamt : BitVec 6)
  /-- `add`, R412. -/
  | add (rd rs1 rs2 : Reg)
  /-- `sub`, R413. -/
  | sub (rd rs1 rs2 : Reg)
  /-- `sll`, R414. -/
  | sll (rd rs1 rs2 : Reg)
  /-- `slt`, R415. -/
  | slt (rd rs1 rs2 : Reg)
  /-- `sltu`, R416. -/
  | sltu (rd rs1 rs2 : Reg)
  /-- `xor`, R417. -/
  | xor (rd rs1 rs2 : Reg)
  /-- `srl`, R418. -/
  | srl (rd rs1 rs2 : Reg)
  /-- `sra`, R419. -/
  | sra (rd rs1 rs2 : Reg)
  /-- `or`, R420. -/
  | or (rd rs1 rs2 : Reg)
  /-- `and`, R421. -/
  | and (rd rs1 rs2 : Reg)
  /-- `addiw`, R422. -/
  | addiw (rd rs1 : Reg) (imm : BitVec 12)
  /-- `slliw`, R423. -/
  | slliw (rd rs1 : Reg) (shamt : BitVec 5)
  /-- `srliw`, R424. -/
  | srliw (rd rs1 : Reg) (shamt : BitVec 5)
  /-- `sraiw`, R425. -/
  | sraiw (rd rs1 : Reg) (shamt : BitVec 5)
  /-- `addw`, R426. -/
  | addw (rd rs1 rs2 : Reg)
  /-- `subw`, R427. -/
  | subw (rd rs1 rs2 : Reg)
  /-- `sllw`, R428. -/
  | sllw (rd rs1 rs2 : Reg)
  /-- `srlw`, R429. -/
  | srlw (rd rs1 rs2 : Reg)
  /-- `sraw`, R430. -/
  | sraw (rd rs1 rs2 : Reg)
  -- Control transfer (42_control.md)
  /-- `jal`, R501. -/
  | jal (rd : Reg) (off : BitVec 20)
  /-- `jalr`, R502. -/
  | jalr (rd rs1 : Reg) (imm : BitVec 12)
  /-- `beq`, R503. -/
  | beq (rs1 rs2 : Reg) (off : BitVec 12)
  /-- `bne`, R504. -/
  | bne (rs1 rs2 : Reg) (off : BitVec 12)
  /-- `blt`, R505. -/
  | blt (rs1 rs2 : Reg) (off : BitVec 12)
  /-- `bge`, R506. -/
  | bge (rs1 rs2 : Reg) (off : BitVec 12)
  /-- `bltu`, R507. -/
  | bltu (rs1 rs2 : Reg) (off : BitVec 12)
  /-- `bgeu`, R508. -/
  | bgeu (rs1 rs2 : Reg) (off : BitVec 12)
  -- Integer loads and stores (43_loadstore.md)
  /-- `lb`, R551. -/
  | lb (rd rs1 : Reg) (imm : BitVec 12)
  /-- `lh`, R552. -/
  | lh (rd rs1 : Reg) (imm : BitVec 12)
  /-- `lw`, R553. -/
  | lw (rd rs1 : Reg) (imm : BitVec 12)
  /-- `ld`, R554. -/
  | ld (rd rs1 : Reg) (imm : BitVec 12)
  /-- `lbu`, R555. -/
  | lbu (rd rs1 : Reg) (imm : BitVec 12)
  /-- `lhu`, R556. -/
  | lhu (rd rs1 : Reg) (imm : BitVec 12)
  /-- `lwu`, R557. -/
  | lwu (rd rs1 : Reg) (imm : BitVec 12)
  /-- `sb`, R558. -/
  | sb (rs1 rs2 : Reg) (imm : BitVec 12)
  /-- `sh`, R559. -/
  | sh (rs1 rs2 : Reg) (imm : BitVec 12)
  /-- `sw`, R560. -/
  | sw (rs1 rs2 : Reg) (imm : BitVec 12)
  /-- `sd`, R561. -/
  | sd (rs1 rs2 : Reg) (imm : BitVec 12)
  -- System instructions (44_system.md)
  /-- `fence`, R600. -/
  | fence (fm pred succ : BitVec 4) (rs1 rd : Reg)
  /-- `fence.i`, R601. -/
  | fenceI (imm : BitVec 12) (rs1 rd : Reg)
  /-- `ecall`, R602. -/
  | ecall
  /-- `ebreak`, R603. -/
  | ebreak
  /-- `csrrw`, R606. -/
  | csrrw (rd rs1 : Reg) (csr : BitVec 12)
  /-- `csrrs`, R607. -/
  | csrrs (rd rs1 : Reg) (csr : BitVec 12)
  /-- `csrrc`, R608. -/
  | csrrc (rd rs1 : Reg) (csr : BitVec 12)
  /-- `csrrwi`, R609. -/
  | csrrwi (rd : Reg) (uimm : BitVec 5) (csr : BitVec 12)
  /-- `csrrsi`, R610. -/
  | csrrsi (rd : Reg) (uimm : BitVec 5) (csr : BitVec 12)
  /-- `csrrci`, R611. -/
  | csrrci (rd : Reg) (uimm : BitVec 5) (csr : BitVec 12)
  -- M extension (45_m.md)
  /-- `mul`, R681. -/
  | mul (rd rs1 rs2 : Reg)
  /-- `mulh`, R682. -/
  | mulh (rd rs1 rs2 : Reg)
  /-- `mulhsu`, R683. -/
  | mulhsu (rd rs1 rs2 : Reg)
  /-- `mulhu`, R684. -/
  | mulhu (rd rs1 rs2 : Reg)
  /-- `div`, R685. -/
  | div (rd rs1 rs2 : Reg)
  /-- `divu`, R686. -/
  | divu (rd rs1 rs2 : Reg)
  /-- `rem`, R687. -/
  | rem (rd rs1 rs2 : Reg)
  /-- `remu`, R688. -/
  | remu (rd rs1 rs2 : Reg)
  /-- `mulw`, R689. -/
  | mulw (rd rs1 rs2 : Reg)
  /-- `divw`, R690. -/
  | divw (rd rs1 rs2 : Reg)
  /-- `divuw`, R691. -/
  | divuw (rd rs1 rs2 : Reg)
  /-- `remw`, R692. -/
  | remw (rd rs1 rs2 : Reg)
  /-- `remuw`, R693. -/
  | remuw (rd rs1 rs2 : Reg)
  -- A extension (46_a.md)
  /-- `lr.w`, R732. -/
  | lrW (rd rs1 : Reg) (aq rl : Bool)
  /-- `sc.w`, R733. -/
  | scW (rd rs1 rs2 : Reg) (aq rl : Bool)
  /-- `lr.d`, R734. -/
  | lrD (rd rs1 : Reg) (aq rl : Bool)
  /-- `sc.d`, R735. -/
  | scD (rd rs1 rs2 : Reg) (aq rl : Bool)
  /-- `amoswap.w`, R737. -/
  | amoswapW (rd rs1 rs2 : Reg) (aq rl : Bool)
  /-- `amoadd.w`, R738. -/
  | amoaddW (rd rs1 rs2 : Reg) (aq rl : Bool)
  /-- `amoxor.w`, R739. -/
  | amoxorW (rd rs1 rs2 : Reg) (aq rl : Bool)
  /-- `amoand.w`, R740. -/
  | amoandW (rd rs1 rs2 : Reg) (aq rl : Bool)
  /-- `amoor.w`, R741. -/
  | amoorW (rd rs1 rs2 : Reg) (aq rl : Bool)
  /-- `amomin.w`, R742. -/
  | amominW (rd rs1 rs2 : Reg) (aq rl : Bool)
  /-- `amomax.w`, R743. -/
  | amomaxW (rd rs1 rs2 : Reg) (aq rl : Bool)
  /-- `amominu.w`, R744. -/
  | amominuW (rd rs1 rs2 : Reg) (aq rl : Bool)
  /-- `amomaxu.w`, R745. -/
  | amomaxuW (rd rs1 rs2 : Reg) (aq rl : Bool)
  /-- `amoswap.d`, R746. -/
  | amoswapD (rd rs1 rs2 : Reg) (aq rl : Bool)
  /-- `amoadd.d`, R747. -/
  | amoaddD (rd rs1 rs2 : Reg) (aq rl : Bool)
  /-- `amoxor.d`, R748. -/
  | amoxorD (rd rs1 rs2 : Reg) (aq rl : Bool)
  /-- `amoand.d`, R749. -/
  | amoandD (rd rs1 rs2 : Reg) (aq rl : Bool)
  /-- `amoor.d`, R750. -/
  | amoorD (rd rs1 rs2 : Reg) (aq rl : Bool)
  /-- `amomin.d`, R751. -/
  | amominD (rd rs1 rs2 : Reg) (aq rl : Bool)
  /-- `amomax.d`, R752. -/
  | amomaxD (rd rs1 rs2 : Reg) (aq rl : Bool)
  /-- `amominu.d`, R753. -/
  | amominuD (rd rs1 rs2 : Reg) (aq rl : Bool)
  /-- `amomaxu.d`, R754. -/
  | amomaxuD (rd rs1 rs2 : Reg) (aq rl : Bool)
  -- F extension (47_f.md)
  /-- `flw`, R820. -/
  | flw (rd : FReg) (rs1 : Reg) (imm : BitVec 12)
  /-- `fsw`, R821. -/
  | fsw (rs1 : Reg) (rs2 : FReg) (imm : BitVec 12)
  /-- `fmadd.s`, R822. -/
  | fmaddS (rd rs1 rs2 rs3 : FReg) (rm : BitVec 3)
  /-- `fmsub.s`, R823. -/
  | fmsubS (rd rs1 rs2 rs3 : FReg) (rm : BitVec 3)
  /-- `fnmsub.s`, R824. -/
  | fnmsubS (rd rs1 rs2 rs3 : FReg) (rm : BitVec 3)
  /-- `fnmadd.s`, R825. -/
  | fnmaddS (rd rs1 rs2 rs3 : FReg) (rm : BitVec 3)
  /-- `fadd.s`, R826. -/
  | faddS (rd rs1 rs2 : FReg) (rm : BitVec 3)
  /-- `fsub.s`, R827. -/
  | fsubS (rd rs1 rs2 : FReg) (rm : BitVec 3)
  /-- `fmul.s`, R828. -/
  | fmulS (rd rs1 rs2 : FReg) (rm : BitVec 3)
  /-- `fdiv.s`, R829. -/
  | fdivS (rd rs1 rs2 : FReg) (rm : BitVec 3)
  /-- `fsqrt.s`, R830. -/
  | fsqrtS (rd rs1 : FReg) (rm : BitVec 3)
  /-- `fsgnj.s`, R831. -/
  | fsgnjS (rd rs1 rs2 : FReg)
  /-- `fsgnjn.s`, R832. -/
  | fsgnjnS (rd rs1 rs2 : FReg)
  /-- `fsgnjx.s`, R833. -/
  | fsgnjxS (rd rs1 rs2 : FReg)
  /-- `fmin.s`, R834. -/
  | fminS (rd rs1 rs2 : FReg)
  /-- `fmax.s`, R835. -/
  | fmaxS (rd rs1 rs2 : FReg)
  /-- `fle.s`, R841. -/
  | fleS (rd : Reg) (rs1 rs2 : FReg)
  /-- `flt.s`, R840. -/
  | fltS (rd : Reg) (rs1 rs2 : FReg)
  /-- `feq.s`, R839. -/
  | feqS (rd : Reg) (rs1 rs2 : FReg)
  /-- `fclass.s`, R842. -/
  | fclassS (rd : Reg) (rs1 : FReg)
  /-- `fcvt.w.s`, R836. -/
  | fcvtWS (rd : Reg) (rs1 : FReg) (rm : BitVec 3)
  /-- `fcvt.s.w`, R843. -/
  | fcvtSW (rd : FReg) (rs1 : Reg) (rm : BitVec 3)
  /-- `fcvt.wu.s`, R837. -/
  | fcvtWuS (rd : Reg) (rs1 : FReg) (rm : BitVec 3)
  /-- `fcvt.s.wu`, R844. -/
  | fcvtSWu (rd : FReg) (rs1 : Reg) (rm : BitVec 3)
  /-- `fcvt.l.s`, R846. -/
  | fcvtLS (rd : Reg) (rs1 : FReg) (rm : BitVec 3)
  /-- `fcvt.s.l`, R848. -/
  | fcvtSL (rd : FReg) (rs1 : Reg) (rm : BitVec 3)
  /-- `fcvt.lu.s`, R847. -/
  | fcvtLuS (rd : Reg) (rs1 : FReg) (rm : BitVec 3)
  /-- `fcvt.s.lu`, R849. -/
  | fcvtSLu (rd : FReg) (rs1 : Reg) (rm : BitVec 3)
  /-- `fmv.x.w`, R838. -/
  | fmvXW (rd : Reg) (rs1 : FReg)
  /-- `fmv.w.x`, R845. -/
  | fmvWX (rd : FReg) (rs1 : Reg)
  -- D extension (48_d.md)
  /-- `fld`, R901. -/
  | fld (rd : FReg) (rs1 : Reg) (imm : BitVec 12)
  /-- `fsd`, R902. -/
  | fsd (rs1 : Reg) (rs2 : FReg) (imm : BitVec 12)
  /-- `fmadd.d`, R903. -/
  | fmaddD (rd rs1 rs2 rs3 : FReg) (rm : BitVec 3)
  /-- `fmsub.d`, R904. -/
  | fmsubD (rd rs1 rs2 rs3 : FReg) (rm : BitVec 3)
  /-- `fnmsub.d`, R905. -/
  | fnmsubD (rd rs1 rs2 rs3 : FReg) (rm : BitVec 3)
  /-- `fnmadd.d`, R906. -/
  | fnmaddD (rd rs1 rs2 rs3 : FReg) (rm : BitVec 3)
  /-- `fadd.d`, R907. -/
  | faddD (rd rs1 rs2 : FReg) (rm : BitVec 3)
  /-- `fsub.d`, R908. -/
  | fsubD (rd rs1 rs2 : FReg) (rm : BitVec 3)
  /-- `fmul.d`, R909. -/
  | fmulD (rd rs1 rs2 : FReg) (rm : BitVec 3)
  /-- `fdiv.d`, R910. -/
  | fdivD (rd rs1 rs2 : FReg) (rm : BitVec 3)
  /-- `fsqrt.d`, R911. -/
  | fsqrtD (rd rs1 : FReg) (rm : BitVec 3)
  /-- `fsgnj.d`, R912. -/
  | fsgnjD (rd rs1 rs2 : FReg)
  /-- `fsgnjn.d`, R913. -/
  | fsgnjnD (rd rs1 rs2 : FReg)
  /-- `fsgnjx.d`, R914. -/
  | fsgnjxD (rd rs1 rs2 : FReg)
  /-- `fmin.d`, R915. -/
  | fminD (rd rs1 rs2 : FReg)
  /-- `fmax.d`, R916. -/
  | fmaxD (rd rs1 rs2 : FReg)
  /-- `fle.d`, R921. -/
  | fleD (rd : Reg) (rs1 rs2 : FReg)
  /-- `flt.d`, R920. -/
  | fltD (rd : Reg) (rs1 rs2 : FReg)
  /-- `feq.d`, R919. -/
  | feqD (rd : Reg) (rs1 rs2 : FReg)
  /-- `fclass.d`, R922. -/
  | fclassD (rd : Reg) (rs1 : FReg)
  /-- `fcvt.w.d`, R923. -/
  | fcvtWD (rd : Reg) (rs1 : FReg) (rm : BitVec 3)
  /-- `fcvt.d.w`, R925. -/
  | fcvtDW (rd : FReg) (rs1 : Reg) (rm : BitVec 3)
  /-- `fcvt.wu.d`, R924. -/
  | fcvtWuD (rd : Reg) (rs1 : FReg) (rm : BitVec 3)
  /-- `fcvt.d.wu`, R926. -/
  | fcvtDWu (rd : FReg) (rs1 : Reg) (rm : BitVec 3)
  /-- `fcvt.l.d`, R927. -/
  | fcvtLD (rd : Reg) (rs1 : FReg) (rm : BitVec 3)
  /-- `fcvt.d.l`, R930. -/
  | fcvtDL (rd : FReg) (rs1 : Reg) (rm : BitVec 3)
  /-- `fcvt.lu.d`, R928. -/
  | fcvtLuD (rd : Reg) (rs1 : FReg) (rm : BitVec 3)
  /-- `fcvt.d.lu`, R931. -/
  | fcvtDLu (rd : FReg) (rs1 : Reg) (rm : BitVec 3)
  /-- `fcvt.s.d`, R917. -/
  | fcvtSD (rd rs1 : FReg) (rm : BitVec 3)
  /-- `fcvt.d.s`, R918. -/
  | fcvtDS (rd rs1 : FReg) (rm : BitVec 3)
  /-- `fmv.x.d`, R929. -/
  | fmvXD (rd : Reg) (rs1 : FReg)
  /-- `fmv.d.x`, R932. -/
  | fmvDX (rd : FReg) (rs1 : Reg)
  -- Compressed instructions (49_c.md)
  /-- `c.addi4spn`, R1003. -/
  | cAddi4spn (rdc : CReg) (nzuimm : BitVec 8)
  /-- `c.fld`, R1004. -/
  | cFld (rdc rs1c : CReg) (uimm : BitVec 5)
  /-- `c.lw`, R1005. -/
  | cLw (rdc rs1c : CReg) (uimm : BitVec 5)
  /-- `c.flw`, R1006. -/
  | cFlw (rdc rs1c : CReg) (uimm : BitVec 5)
  /-- `c.ld`, R1007. -/
  | cLd (rdc rs1c : CReg) (uimm : BitVec 5)
  /-- `c.fsd`, R1008. -/
  | cFsd (rs1c rs2c : CReg) (uimm : BitVec 5)
  /-- `c.sw`, R1009. -/
  | cSw (rs1c rs2c : CReg) (uimm : BitVec 5)
  /-- `c.fsw`, R1010. -/
  | cFsw (rs1c rs2c : CReg) (uimm : BitVec 5)
  /-- `c.sd`, R1011. -/
  | cSd (rs1c rs2c : CReg) (uimm : BitVec 5)
  /-- `c.nop`, R1012. -/
  | cNop (imm : BitVec 6)
  /-- `c.addi`, R1013. -/
  | cAddi (rd : Reg) (imm : BitVec 6)
  /-- `c.jal`, R1014. -/
  | cJal (off : BitVec 11)
  /-- `c.addiw`, R1015. -/
  | cAddiw (rd : Reg) (imm : BitVec 6)
  /-- `c.li`, R1016. -/
  | cLi (rd : Reg) (imm : BitVec 6)
  /-- `c.addi16sp`, R1017. -/
  | cAddi16sp (nzimm : BitVec 6)
  /-- `c.lui`, R1018. -/
  | cLui (rd : Reg) (nzimm : BitVec 6)
  /-- `c.srli`, R1019. -/
  | cSrli (rdc : CReg) (shamt : BitVec 6)
  /-- `c.srai`, R1020. -/
  | cSrai (rdc : CReg) (shamt : BitVec 6)
  /-- `c.andi`, R1021. -/
  | cAndi (rdc : CReg) (imm : BitVec 6)
  /-- `c.sub`, R1022. -/
  | cSub (rdc rs2c : CReg)
  /-- `c.xor`, R1023. -/
  | cXor (rdc rs2c : CReg)
  /-- `c.or`, R1024. -/
  | cOr (rdc rs2c : CReg)
  /-- `c.and`, R1025. -/
  | cAnd (rdc rs2c : CReg)
  /-- `c.subw`, R1026. -/
  | cSubw (rdc rs2c : CReg)
  /-- `c.addw`, R1027. -/
  | cAddw (rdc rs2c : CReg)
  /-- `c.j`, R1028. -/
  | cJ (off : BitVec 11)
  /-- `c.beqz`, R1029. -/
  | cBeqz (rs1c : CReg) (off : BitVec 8)
  /-- `c.bnez`, R1030. -/
  | cBnez (rs1c : CReg) (off : BitVec 8)
  /-- `c.slli`, R1031. -/
  | cSlli (rd : Reg) (shamt : BitVec 6)
  /-- `c.fldsp`, R1032. -/
  | cFldsp (rd : FReg) (uimm : BitVec 6)
  /-- `c.lwsp`, R1033. -/
  | cLwsp (rd : Reg) (uimm : BitVec 6)
  /-- `c.flwsp`, R1034. -/
  | cFlwsp (rd : FReg) (uimm : BitVec 6)
  /-- `c.ldsp`, R1035. -/
  | cLdsp (rd : Reg) (uimm : BitVec 6)
  /-- `c.jr`, R1036. -/
  | cJr (rs1 : Reg)
  /-- `c.mv`, R1037. -/
  | cMv (rd rs2 : Reg)
  /-- `c.ebreak`, R1038. -/
  | cEbreak
  /-- `c.jalr`, R1039. -/
  | cJalr (rs1 : Reg)
  /-- `c.add`, R1040. -/
  | cAdd (rd rs2 : Reg)
  /-- `c.fsdsp`, R1041. -/
  | cFsdsp (rs2 : FReg) (uimm : BitVec 6)
  /-- `c.swsp`, R1042. -/
  | cSwsp (rs2 : Reg) (uimm : BitVec 6)
  /-- `c.fswsp`, R1043. -/
  | cFswsp (rs2 : FReg) (uimm : BitVec 6)
  /-- `c.sdsp`, R1044. -/
  | cSdsp (rs2 : Reg) (uimm : BitVec 6)
  deriving DecidableEq, Repr

end Sys2Proof
end

