-- ==== Sys2Proof/WellFormed.lean ====
section
/-! DEFINITION. Which terms of `Instr` are instructions of the block at a given XLEN: the `xlen` list of the
opcode table's row and the register and immediate conditions its `constraints` give (30_encoding.md R300, R310;
49_c.md R1045). Whether the row's extension is present is no matter of form: decode checks it (40_cycle.md R356). -/

namespace Sys2Proof

/-- A shift amount that XLEN allows: bit 5 is reserved when XLEN = 32 (30_encoding.md R275; 49_c.md R1045). -/
def Xlen.shamtOk (xl : Xlen) (shamt : BitVec 6) : Bool :=
  match xl with
  | .rv32 => !shamt.getLsbD 5
  | .rv64 => true

/-- The row exists when XLEN = 64 only. -/
def Xlen.is64 : Xlen → Bool
  | .rv32 => false
  | .rv64 => true

/-- The row exists when XLEN = 32 only. -/
def Xlen.is32 : Xlen → Bool
  | .rv32 => true
  | .rv64 => false

/-- `i` is an instruction of the block when the register width is `xl`. -/
def Instr.wellFormed (xl : Xlen) (i : Instr) : Bool :=
  match i with
  | .lui _ _ => true
  | .auipc _ _ => true
  | .addi _ _ _ => true
  | .slti _ _ _ => true
  | .sltiu _ _ _ => true
  | .xori _ _ _ => true
  | .ori _ _ _ => true
  | .andi _ _ _ => true
  | .slli _ _ shamt => xl.shamtOk shamt
  | .srli _ _ shamt => xl.shamtOk shamt
  | .srai _ _ shamt => xl.shamtOk shamt
  | .add _ _ _ => true
  | .sub _ _ _ => true
  | .sll _ _ _ => true
  | .slt _ _ _ => true
  | .sltu _ _ _ => true
  | .xor _ _ _ => true
  | .srl _ _ _ => true
  | .sra _ _ _ => true
  | .or _ _ _ => true
  | .and _ _ _ => true
  | .addiw _ _ _ => xl.is64
  | .slliw _ _ _ => xl.is64
  | .srliw _ _ _ => xl.is64
  | .sraiw _ _ _ => xl.is64
  | .addw _ _ _ => xl.is64
  | .subw _ _ _ => xl.is64
  | .sllw _ _ _ => xl.is64
  | .srlw _ _ _ => xl.is64
  | .sraw _ _ _ => xl.is64
  | .jal _ _ => true
  | .jalr _ _ _ => true
  | .beq _ _ _ => true
  | .bne _ _ _ => true
  | .blt _ _ _ => true
  | .bge _ _ _ => true
  | .bltu _ _ _ => true
  | .bgeu _ _ _ => true
  | .lb _ _ _ => true
  | .lh _ _ _ => true
  | .lw _ _ _ => true
  | .ld _ _ _ => xl.is64
  | .lbu _ _ _ => true
  | .lhu _ _ _ => true
  | .lwu _ _ _ => xl.is64
  | .sb _ _ _ => true
  | .sh _ _ _ => true
  | .sw _ _ _ => true
  | .sd _ _ _ => xl.is64
  | .fence _ _ _ _ _ => true
  | .fenceI _ _ _ => true
  | .ecall => true
  | .ebreak => true
  | .csrrw _ _ _ => true
  | .csrrs _ _ _ => true
  | .csrrc _ _ _ => true
  | .csrrwi _ _ _ => true
  | .csrrsi _ _ _ => true
  | .csrrci _ _ _ => true
  | .mul _ _ _ => true
  | .mulh _ _ _ => true
  | .mulhsu _ _ _ => true
  | .mulhu _ _ _ => true
  | .div _ _ _ => true
  | .divu _ _ _ => true
  | .rem _ _ _ => true
  | .remu _ _ _ => true
  | .mulw _ _ _ => xl.is64
  | .divw _ _ _ => xl.is64
  | .divuw _ _ _ => xl.is64
  | .remw _ _ _ => xl.is64
  | .remuw _ _ _ => xl.is64
  | .lrW _ _ _ _ => true
  | .scW _ _ _ _ _ => true
  | .lrD _ _ _ _ => xl.is64
  | .scD _ _ _ _ _ => xl.is64
  | .amoswapW _ _ _ _ _ => true
  | .amoaddW _ _ _ _ _ => true
  | .amoxorW _ _ _ _ _ => true
  | .amoandW _ _ _ _ _ => true
  | .amoorW _ _ _ _ _ => true
  | .amominW _ _ _ _ _ => true
  | .amomaxW _ _ _ _ _ => true
  | .amominuW _ _ _ _ _ => true
  | .amomaxuW _ _ _ _ _ => true
  | .amoswapD _ _ _ _ _ => xl.is64
  | .amoaddD _ _ _ _ _ => xl.is64
  | .amoxorD _ _ _ _ _ => xl.is64
  | .amoandD _ _ _ _ _ => xl.is64
  | .amoorD _ _ _ _ _ => xl.is64
  | .amominD _ _ _ _ _ => xl.is64
  | .amomaxD _ _ _ _ _ => xl.is64
  | .amominuD _ _ _ _ _ => xl.is64
  | .amomaxuD _ _ _ _ _ => xl.is64
  | .flw _ _ _ => true
  | .fsw _ _ _ => true
  | .fmaddS _ _ _ _ _ => true
  | .fmsubS _ _ _ _ _ => true
  | .fnmsubS _ _ _ _ _ => true
  | .fnmaddS _ _ _ _ _ => true
  | .faddS _ _ _ _ => true
  | .fsubS _ _ _ _ => true
  | .fmulS _ _ _ _ => true
  | .fdivS _ _ _ _ => true
  | .fsqrtS _ _ _ => true
  | .fsgnjS _ _ _ => true
  | .fsgnjnS _ _ _ => true
  | .fsgnjxS _ _ _ => true
  | .fminS _ _ _ => true
  | .fmaxS _ _ _ => true
  | .fleS _ _ _ => true
  | .fltS _ _ _ => true
  | .feqS _ _ _ => true
  | .fclassS _ _ => true
  | .fcvtWS _ _ _ => true
  | .fcvtSW _ _ _ => true
  | .fcvtWuS _ _ _ => true
  | .fcvtSWu _ _ _ => true
  | .fcvtLS _ _ _ => xl.is64
  | .fcvtSL _ _ _ => xl.is64
  | .fcvtLuS _ _ _ => xl.is64
  | .fcvtSLu _ _ _ => xl.is64
  | .fmvXW _ _ => true
  | .fmvWX _ _ => true
  | .fld _ _ _ => true
  | .fsd _ _ _ => true
  | .fmaddD _ _ _ _ _ => true
  | .fmsubD _ _ _ _ _ => true
  | .fnmsubD _ _ _ _ _ => true
  | .fnmaddD _ _ _ _ _ => true
  | .faddD _ _ _ _ => true
  | .fsubD _ _ _ _ => true
  | .fmulD _ _ _ _ => true
  | .fdivD _ _ _ _ => true
  | .fsqrtD _ _ _ => true
  | .fsgnjD _ _ _ => true
  | .fsgnjnD _ _ _ => true
  | .fsgnjxD _ _ _ => true
  | .fminD _ _ _ => true
  | .fmaxD _ _ _ => true
  | .fleD _ _ _ => true
  | .fltD _ _ _ => true
  | .feqD _ _ _ => true
  | .fclassD _ _ => true
  | .fcvtWD _ _ _ => true
  | .fcvtDW _ _ _ => true
  | .fcvtWuD _ _ _ => true
  | .fcvtDWu _ _ _ => true
  | .fcvtLD _ _ _ => xl.is64
  | .fcvtDL _ _ _ => xl.is64
  | .fcvtLuD _ _ _ => xl.is64
  | .fcvtDLu _ _ _ => xl.is64
  | .fcvtSD _ _ _ => true
  | .fcvtDS _ _ _ => true
  | .fmvXD _ _ => xl.is64
  | .fmvDX _ _ => xl.is64
  | .cAddi4spn _ nzuimm => nzuimm != 0
  | .cFld _ _ _ => true
  | .cLw _ _ _ => true
  | .cFlw _ _ _ => xl.is32
  | .cLd _ _ _ => xl.is64
  | .cFsd _ _ _ => true
  | .cSw _ _ _ => true
  | .cFsw _ _ _ => xl.is32
  | .cSd _ _ _ => xl.is64
  | .cNop _ => true
  | .cAddi rd _ => rd != 0
  | .cJal _ => xl.is32
  | .cAddiw rd _ => xl.is64 && rd != 0
  | .cLi _ _ => true
  | .cAddi16sp nzimm => nzimm != 0
  | .cLui rd nzimm => rd != 2 && nzimm != 0
  | .cSrli _ shamt => xl.shamtOk shamt
  | .cSrai _ shamt => xl.shamtOk shamt
  | .cAndi _ _ => true
  | .cSub _ _ => true
  | .cXor _ _ => true
  | .cOr _ _ => true
  | .cAnd _ _ => true
  | .cSubw _ _ => xl.is64
  | .cAddw _ _ => xl.is64
  | .cJ _ => true
  | .cBeqz _ _ => true
  | .cBnez _ _ => true
  | .cSlli _ shamt => xl.shamtOk shamt
  | .cFldsp _ _ => true
  | .cLwsp rd _ => rd != 0
  | .cFlwsp _ _ => xl.is32
  | .cLdsp rd _ => xl.is64 && rd != 0
  | .cJr rs1 => rs1 != 0
  | .cMv _ rs2 => rs2 != 0
  | .cEbreak => true
  | .cJalr rs1 => rs1 != 0
  | .cAdd _ rs2 => rs2 != 0
  | .cFsdsp _ _ => true
  | .cSwsp _ _ => true
  | .cFswsp _ _ => xl.is32
  | .cSdsp _ _ => xl.is64

end Sys2Proof
end

