-- ==== Sys2Proof/Decode.lean ====
section
/-! DEFINITION. From instruction bits to `Instr` and back (30_encoding.md, 49_c.md, spec/opcode_table.json).

A fetched instruction is a `Parcel`, one halfword or one word (R250). Its bits are cut into the fields of R252 and
R280 once; the decoder matches fields; the encoder puts the same fields together. Decoding answers one of the
three outcomes of 40_cycle.md R356, or says that the bytes given end inside an instruction. -/

namespace Sys2Proof

/-! ## Instruction parcels -/

/-- The bits of one instruction as fetched: 16 or 32 of them (30_encoding.md R250, R251). -/
inductive Parcel where
  | half (h : BitVec 16)
  | word (w : BitVec 32)
  deriving DecidableEq, Repr

/-- `bits` of a trap: the raw instruction, zero-extended (40_cycle.md R356). -/
def Parcel.bits : Parcel → Word
  | .half h => h.setWidth 64
  | .word w => w.setWidth 64

/-- `len` in bytes (00_scope.md R27). -/
def Parcel.len : Parcel → Nat
  | .half _ => 2
  | .word _ => 4

/-- The length is decided by bits [1:0] of the first halfword: 0b11 marks a 32-bit instruction (30_encoding.md R250). -/
def isWordStart (h : BitVec 16) : Bool := h.extractLsb' 0 2 == 0b11#2

/-- The halfword at the lower address holds bits [15:0] (30_encoding.md R251). -/
def joinHalves (h1 h0 : BitVec 16) : BitVec 32 := h1 ++ h0

/-- The bytes of a parcel in address order: little-endian (20_memory.md R155). -/
def Parcel.bytes : Parcel → List Byte
  | .half h => [h.extractLsb' 0 8, h.extractLsb' 8 8]
  | .word w => [w.extractLsb' 0 8, w.extractLsb' 8 8, w.extractLsb' 16 8, w.extractLsb' 24 8]

/-- The instruction that begins a list of bytes, with the rest; nothing where the bytes end inside it. -/
def parcelOfBytes : List Byte → Option (Parcel × List Byte)
  | b0 :: b1 :: rest =>
    let h0 : BitVec 16 := b1 ++ b0
    if isWordStart h0 then
      match rest with
      | b2 :: b3 :: rest' => some (.word (joinHalves (b3 ++ b2) h0), rest')
      | _ => none
    else some (.half h0, rest)
  | _ => none

/-! ## Fields of a 32-bit instruction -/

/-- The R-format cut of a 32-bit instruction; register fields are always in the same place (30_encoding.md R252). -/
structure Fields where
  funct7 : BitVec 7
  rs2 : BitVec 5
  rs1 : BitVec 5
  funct3 : BitVec 3
  rd : BitVec 5
  opcode : BitVec 7
  deriving DecidableEq, Repr

/-- Cut a word into its fields. -/
def Fields.ofWord (w : BitVec 32) : Fields :=
  { funct7 := w.extractLsb' 25 7, rs2 := w.extractLsb' 20 5, rs1 := w.extractLsb' 15 5,
    funct3 := w.extractLsb' 12 3, rd := w.extractLsb' 7 5, opcode := w.extractLsb' 0 7 }

/-- Put the fields of a word together. -/
def Fields.toWord (f : Fields) : BitVec 32 :=
  f.funct7 ++ f.rs2 ++ f.rs1 ++ f.funct3 ++ f.rd ++ f.opcode

/-- I immediate, inst[31:20] (30_encoding.md R270); also the csr number (R276). -/
def Fields.immI (f : Fields) : BitVec 12 := f.funct7 ++ f.rs2

/-- S immediate, inst[31:25] and inst[11:7] (30_encoding.md R271). -/
def Fields.immS (f : Fields) : BitVec 12 := f.funct7 ++ f.rd

/-- B offset [12:1]: inst[31], inst[7], inst[30:25], inst[11:8] (30_encoding.md R272). -/
def Fields.offB (f : Fields) : BitVec 12 :=
  f.funct7.extractLsb' 6 1 ++ f.rd.extractLsb' 0 1 ++ f.funct7.extractLsb' 0 6 ++ f.rd.extractLsb' 1 4

/-- U immediate [31:12] (30_encoding.md R273). -/
def Fields.immU (f : Fields) : BitVec 20 := f.funct7 ++ f.rs2 ++ f.rs1 ++ f.funct3

/-- J offset [20:1]: inst[31], inst[19:12], inst[20], inst[30:21] (30_encoding.md R274). -/
def Fields.offJ (f : Fields) : BitVec 20 :=
  f.funct7.extractLsb' 6 1 ++ f.rs1 ++ f.funct3 ++ f.rs2.extractLsb' 0 1 ++ f.funct7.extractLsb' 0 6 ++
    f.rs2.extractLsb' 1 4

/-- The 6-bit shift amount of SLLI, SRLI and SRAI, inst[25:20] (30_encoding.md R275). -/
def Fields.shamt (f : Fields) : BitVec 6 := f.funct7.extractLsb' 0 1 ++ f.rs2

/-- inst[31:26], which selects the shift (30_encoding.md R291). -/
def Fields.funct6 (f : Fields) : BitVec 6 := f.funct7.extractLsb' 1 6

/-- inst[31:27] of an atomic (30_encoding.md R277). -/
def Fields.funct5 (f : Fields) : BitVec 5 := f.funct7.extractLsb' 2 5

/-- The aq bit, inst[26] (30_encoding.md R277). -/
def Fields.aq (f : Fields) : Bool := f.funct7.getLsbD 1

/-- The rl bit, inst[25] (30_encoding.md R277). -/
def Fields.rl (f : Fields) : Bool := f.funct7.getLsbD 0

/-- rs3, inst[31:27], of the R4 format (30_encoding.md R278). -/
def Fields.rs3 (f : Fields) : BitVec 5 := f.funct7.extractLsb' 2 5

/-- fmt, inst[26:25], of the R4 format (30_encoding.md R278). -/
def Fields.fmt (f : Fields) : BitVec 2 := f.funct7.extractLsb' 0 2

/-- fm, inst[31:28], of FENCE (30_encoding.md R279). -/
def Fields.fm (f : Fields) : BitVec 4 := f.funct7.extractLsb' 3 4

/-- pred, inst[27:24], of FENCE (30_encoding.md R279). -/
def Fields.pred (f : Fields) : BitVec 4 := f.funct7.extractLsb' 0 3 ++ f.rs2.extractLsb' 4 1

/-- succ, inst[23:20], of FENCE (30_encoding.md R279). -/
def Fields.succ (f : Fields) : BitVec 4 := f.rs2.extractLsb' 0 4

/-! ## Fields of a 16-bit instruction -/

/-- The finest cut the compressed formats need (30_encoding.md R280): `funct3` 15:13, `b12` 12, `mid` 11:10,
`r1` 9:7, `b65` 6:5, `r2` 4:2, `op` 1:0. -/
structure CFields where
  funct3 : BitVec 3
  b12 : BitVec 1
  mid : BitVec 2
  r1 : BitVec 3
  b65 : BitVec 2
  r2 : BitVec 3
  op : BitVec 2
  deriving DecidableEq, Repr

/-- Cut a halfword into its fields. -/
def CFields.ofHalf (h : BitVec 16) : CFields :=
  { funct3 := h.extractLsb' 13 3, b12 := h.extractLsb' 12 1, mid := h.extractLsb' 10 2, r1 := h.extractLsb' 7 3,
    b65 := h.extractLsb' 5 2, r2 := h.extractLsb' 2 3, op := h.extractLsb' 0 2 }

/-- Put the fields of a halfword together. -/
def CFields.toHalf (c : CFields) : BitVec 16 :=
  c.funct3 ++ c.b12 ++ c.mid ++ c.r1 ++ c.b65 ++ c.r2 ++ c.op

/-- The full register field rd/rs1, bits 11:7. -/
def CFields.rd (c : CFields) : BitVec 5 := c.mid ++ c.r1

/-- The full register field rs2, bits 6:2. -/
def CFields.rs2 (c : CFields) : BitVec 5 := c.b65 ++ c.r2

/-- A 6-bit immediate or shift amount: bit 12, bits 6:2 (CI, CB-shift, CB-andi). -/
def CFields.imm6 (c : CFields) : BitVec 6 := c.b12 ++ c.b65 ++ c.r2

/-- nzuimm[9:2] of C.ADDI4SPN: bits 12:5 hold [5:4|9:6|2|3] (49_c.md R1003). -/
def CFields.nzuimm (c : CFields) : BitVec 8 :=
  c.mid.extractLsb' 0 1 ++ c.r1 ++ c.b12 ++ c.mid.extractLsb' 1 1 ++ c.b65.extractLsb' 0 1 ++ c.b65.extractLsb' 1 1

/-- uimm[7:3] of the doubleword CL and CS forms: bits 12:10 hold [5:3], 6:5 hold [7:6] (49_c.md R1004). -/
def CFields.uimmD (c : CFields) : BitVec 5 := c.b65 ++ c.b12 ++ c.mid

/-- uimm[6:2] of the word CL and CS forms: bits 12:10 hold [5:3], 6 holds [2], 5 holds [6] (49_c.md R1005). -/
def CFields.uimmW (c : CFields) : BitVec 5 :=
  c.b65.extractLsb' 0 1 ++ c.b12 ++ c.mid ++ c.b65.extractLsb' 1 1

/-- offset[11:1] of the CJ format: bits 12:2 hold [11|4|9:8|10|6|7|3:1|5] (49_c.md R1014). -/
def CFields.offJ (c : CFields) : BitVec 11 :=
  c.b12 ++ c.r1.extractLsb' 1 1 ++ c.mid.extractLsb' 0 1 ++ c.r1.extractLsb' 2 1 ++ c.b65.extractLsb' 1 1 ++
    c.r1.extractLsb' 0 1 ++ c.r2.extractLsb' 0 1 ++ c.mid.extractLsb' 1 1 ++ c.b65.extractLsb' 0 1 ++
    c.r2.extractLsb' 1 2

/-- offset[8:1] of C.BEQZ and C.BNEZ: bits 12:10 hold [8|4:3], 6:2 hold [7:6|2:1|5] (49_c.md R1029). -/
def CFields.offB (c : CFields) : BitVec 8 :=
  c.b12 ++ c.b65 ++ c.r2.extractLsb' 0 1 ++ c.mid ++ c.r2.extractLsb' 1 2

/-- nzimm[9:4] of C.ADDI16SP: bit 12 holds [9], 6:2 hold [4|6|8:7|5] (49_c.md R1017). -/
def CFields.nzimm16 (c : CFields) : BitVec 6 :=
  c.b12 ++ c.r2.extractLsb' 1 2 ++ c.b65.extractLsb' 0 1 ++ c.r2.extractLsb' 0 1 ++ c.b65.extractLsb' 1 1

/-- uimm[8:3] of the doubleword stack loads: bit 12 holds [5], 6:2 hold [4:3|8:6] (49_c.md R1032). -/
def CFields.uimmLdsp (c : CFields) : BitVec 6 := c.r2 ++ c.b12 ++ c.b65

/-- uimm[7:2] of the word stack loads: bit 12 holds [5], 6:2 hold [4:2|7:6] (49_c.md R1033). -/
def CFields.uimmLwsp (c : CFields) : BitVec 6 :=
  c.r2.extractLsb' 0 2 ++ c.b12 ++ c.b65 ++ c.r2.extractLsb' 2 1

/-- uimm[8:3] of the doubleword stack stores: bits 12:7 hold [5:3|8:6] (49_c.md R1041). -/
def CFields.uimmSdsp (c : CFields) : BitVec 6 := c.r1 ++ c.b12 ++ c.mid

/-- uimm[7:2] of the word stack stores: bits 12:7 hold [5:2|7:6] (49_c.md R1042). -/
def CFields.uimmSwsp (c : CFields) : BitVec 6 :=
  c.r1.extractLsb' 0 2 ++ c.b12 ++ c.mid ++ c.r1.extractLsb' 2 1

/-! ## Row selection, 32-bit (30_encoding.md R290 to R292, R300) -/

/-- A row of the table whose `xlen` list is [64] (30_encoding.md R310). -/
def only64 (xl : Xlen) (i : Instr) : Option Instr :=
  match xl with
  | .rv32 => none
  | .rv64 => some i

/-- A row of the table whose `xlen` list is [32]. -/
def only32 (xl : Xlen) (i : Instr) : Option Instr :=
  match xl with
  | .rv32 => some i
  | .rv64 => none

/-- SLLI, SRLI and SRAI, C.SLLI, C.SRLI and C.SRAI: shamt[5] must be 0 when XLEN = 32 (30_encoding.md R275;
49_c.md R1045). -/
def shiftRow (xl : Xlen) (shamt : BitVec 6) (i : Instr) : Option Instr :=
  match xl with
  | .rv32 => if shamt.getLsbD 5 then none else some i
  | .rv64 => some i

/-- Select a row unless a constraint of it is broken. -/
def rowIf (ok : Bool) (i : Instr) : Option Instr := if ok then some i else none

/-- LOAD 0x03. -/
def decodeLoad (xl : Xlen) (f : Fields) : Option Instr :=
  match f.funct3 with
  | 0#3 => some (.lb f.rd f.rs1 f.immI)
  | 1#3 => some (.lh f.rd f.rs1 f.immI)
  | 2#3 => some (.lw f.rd f.rs1 f.immI)
  | 3#3 => only64 xl (.ld f.rd f.rs1 f.immI)
  | 4#3 => some (.lbu f.rd f.rs1 f.immI)
  | 5#3 => some (.lhu f.rd f.rs1 f.immI)
  | 6#3 => only64 xl (.lwu f.rd f.rs1 f.immI)
  | _ => none

/-- STORE 0x23. -/
def decodeStore (xl : Xlen) (f : Fields) : Option Instr :=
  match f.funct3 with
  | 0#3 => some (.sb f.rs1 f.rs2 f.immS)
  | 1#3 => some (.sh f.rs1 f.rs2 f.immS)
  | 2#3 => some (.sw f.rs1 f.rs2 f.immS)
  | 3#3 => only64 xl (.sd f.rs1 f.rs2 f.immS)
  | _ => none

/-- LOAD-FP 0x07. -/
def decodeLoadFp (f : Fields) : Option Instr :=
  match f.funct3 with
  | 2#3 => some (.flw f.rd f.rs1 f.immI)
  | 3#3 => some (.fld f.rd f.rs1 f.immI)
  | _ => none

/-- STORE-FP 0x27. -/
def decodeStoreFp (f : Fields) : Option Instr :=
  match f.funct3 with
  | 2#3 => some (.fsw f.rs1 f.rs2 f.immS)
  | 3#3 => some (.fsd f.rs1 f.rs2 f.immS)
  | _ => none

/-- MISC-MEM 0x0F. Only funct3 is checked (30_encoding.md R301). -/
def decodeMiscMem (f : Fields) : Option Instr :=
  match f.funct3 with
  | 0#3 => some (.fence f.fm f.pred f.succ f.rs1 f.rd)
  | 1#3 => some (.fenceI f.immI f.rs1 f.rd)
  | _ => none

/-- OP-IMM 0x13. -/
def decodeOpImm (xl : Xlen) (f : Fields) : Option Instr :=
  match f.funct3 with
  | 0#3 => some (.addi f.rd f.rs1 f.immI)
  | 1#3 =>
    match f.funct6 with
    | 0x00#6 => shiftRow xl f.shamt (.slli f.rd f.rs1 f.shamt)
    | _ => none
  | 2#3 => some (.slti f.rd f.rs1 f.immI)
  | 3#3 => some (.sltiu f.rd f.rs1 f.immI)
  | 4#3 => some (.xori f.rd f.rs1 f.immI)
  | 5#3 =>
    match f.funct6 with
    | 0x00#6 => shiftRow xl f.shamt (.srli f.rd f.rs1 f.shamt)
    | 0x10#6 => shiftRow xl f.shamt (.srai f.rd f.rs1 f.shamt)
    | _ => none
  | 6#3 => some (.ori f.rd f.rs1 f.immI)
  | 7#3 => some (.andi f.rd f.rs1 f.immI)
  | _ => none

/-- OP-IMM-32 0x1B, XLEN = 64 only. -/
def decodeOpImm32 (xl : Xlen) (f : Fields) : Option Instr :=
  match f.funct3 with
  | 0#3 => only64 xl (.addiw f.rd f.rs1 f.immI)
  | 1#3 =>
    match f.funct7 with
    | 0x00#7 => only64 xl (.slliw f.rd f.rs1 f.rs2)
    | _ => none
  | 5#3 =>
    match f.funct7 with
    | 0x00#7 => only64 xl (.srliw f.rd f.rs1 f.rs2)
    | 0x20#7 => only64 xl (.sraiw f.rd f.rs1 f.rs2)
    | _ => none
  | _ => none

/-- OP 0x33. -/
def decodeOp (f : Fields) : Option Instr :=
  match f.funct7, f.funct3 with
  | 0x00#7, 0#3 => some (.add f.rd f.rs1 f.rs2)
  | 0x00#7, 1#3 => some (.sll f.rd f.rs1 f.rs2)
  | 0x00#7, 2#3 => some (.slt f.rd f.rs1 f.rs2)
  | 0x00#7, 3#3 => some (.sltu f.rd f.rs1 f.rs2)
  | 0x00#7, 4#3 => some (.xor f.rd f.rs1 f.rs2)
  | 0x00#7, 5#3 => some (.srl f.rd f.rs1 f.rs2)
  | 0x00#7, 6#3 => some (.or f.rd f.rs1 f.rs2)
  | 0x00#7, 7#3 => some (.and f.rd f.rs1 f.rs2)
  | 0x20#7, 0#3 => some (.sub f.rd f.rs1 f.rs2)
  | 0x20#7, 5#3 => some (.sra f.rd f.rs1 f.rs2)
  | 0x01#7, 0#3 => some (.mul f.rd f.rs1 f.rs2)
  | 0x01#7, 1#3 => some (.mulh f.rd f.rs1 f.rs2)
  | 0x01#7, 2#3 => some (.mulhsu f.rd f.rs1 f.rs2)
  | 0x01#7, 3#3 => some (.mulhu f.rd f.rs1 f.rs2)
  | 0x01#7, 4#3 => some (.div f.rd f.rs1 f.rs2)
  | 0x01#7, 5#3 => some (.divu f.rd f.rs1 f.rs2)
  | 0x01#7, 6#3 => some (.rem f.rd f.rs1 f.rs2)
  | 0x01#7, 7#3 => some (.remu f.rd f.rs1 f.rs2)
  | _, _ => none

/-- OP-32 0x3B, XLEN = 64 only. -/
def decodeOp32 (xl : Xlen) (f : Fields) : Option Instr :=
  match f.funct7, f.funct3 with
  | 0x00#7, 0#3 => only64 xl (.addw f.rd f.rs1 f.rs2)
  | 0x00#7, 1#3 => only64 xl (.sllw f.rd f.rs1 f.rs2)
  | 0x00#7, 5#3 => only64 xl (.srlw f.rd f.rs1 f.rs2)
  | 0x20#7, 0#3 => only64 xl (.subw f.rd f.rs1 f.rs2)
  | 0x20#7, 5#3 => only64 xl (.sraw f.rd f.rs1 f.rs2)
  | 0x01#7, 0#3 => only64 xl (.mulw f.rd f.rs1 f.rs2)
  | 0x01#7, 4#3 => only64 xl (.divw f.rd f.rs1 f.rs2)
  | 0x01#7, 5#3 => only64 xl (.divuw f.rd f.rs1 f.rs2)
  | 0x01#7, 6#3 => only64 xl (.remw f.rd f.rs1 f.rs2)
  | 0x01#7, 7#3 => only64 xl (.remuw f.rd f.rs1 f.rs2)
  | _, _ => none

/-- AMO 0x2F (30_encoding.md R277). -/
def decodeAmo (xl : Xlen) (f : Fields) : Option Instr :=
  match f.funct3, f.funct5 with
  | 2#3, 0x02#5 => if f.rs2 = 0#5 then some (.lrW f.rd f.rs1 f.aq f.rl) else none
  | 2#3, 0x03#5 => some (.scW f.rd f.rs1 f.rs2 f.aq f.rl)
  | 2#3, 0x01#5 => some (.amoswapW f.rd f.rs1 f.rs2 f.aq f.rl)
  | 2#3, 0x00#5 => some (.amoaddW f.rd f.rs1 f.rs2 f.aq f.rl)
  | 2#3, 0x04#5 => some (.amoxorW f.rd f.rs1 f.rs2 f.aq f.rl)
  | 2#3, 0x0c#5 => some (.amoandW f.rd f.rs1 f.rs2 f.aq f.rl)
  | 2#3, 0x08#5 => some (.amoorW f.rd f.rs1 f.rs2 f.aq f.rl)
  | 2#3, 0x10#5 => some (.amominW f.rd f.rs1 f.rs2 f.aq f.rl)
  | 2#3, 0x14#5 => some (.amomaxW f.rd f.rs1 f.rs2 f.aq f.rl)
  | 2#3, 0x18#5 => some (.amominuW f.rd f.rs1 f.rs2 f.aq f.rl)
  | 2#3, 0x1c#5 => some (.amomaxuW f.rd f.rs1 f.rs2 f.aq f.rl)
  | 3#3, 0x02#5 => if f.rs2 = 0#5 then only64 xl (.lrD f.rd f.rs1 f.aq f.rl) else none
  | 3#3, 0x03#5 => only64 xl (.scD f.rd f.rs1 f.rs2 f.aq f.rl)
  | 3#3, 0x01#5 => only64 xl (.amoswapD f.rd f.rs1 f.rs2 f.aq f.rl)
  | 3#3, 0x00#5 => only64 xl (.amoaddD f.rd f.rs1 f.rs2 f.aq f.rl)
  | 3#3, 0x04#5 => only64 xl (.amoxorD f.rd f.rs1 f.rs2 f.aq f.rl)
  | 3#3, 0x0c#5 => only64 xl (.amoandD f.rd f.rs1 f.rs2 f.aq f.rl)
  | 3#3, 0x08#5 => only64 xl (.amoorD f.rd f.rs1 f.rs2 f.aq f.rl)
  | 3#3, 0x10#5 => only64 xl (.amominD f.rd f.rs1 f.rs2 f.aq f.rl)
  | 3#3, 0x14#5 => only64 xl (.amomaxD f.rd f.rs1 f.rs2 f.aq f.rl)
  | 3#3, 0x18#5 => only64 xl (.amominuD f.rd f.rs1 f.rs2 f.aq f.rl)
  | 3#3, 0x1c#5 => only64 xl (.amomaxuD f.rd f.rs1 f.rs2 f.aq f.rl)
  | _, _ => none

/-- MADD, MSUB, NMSUB and NMADD, 0x43, 0x47, 0x4B and 0x4F: fmt selects the precision (30_encoding.md R278). -/
def decodeFma (single double : FReg → FReg → FReg → FReg → BitVec 3 → Instr) (f : Fields) : Option Instr :=
  match f.fmt with
  | 0#2 => some (single f.rd f.rs1 f.rs2 f.rs3 f.funct3)
  | 1#2 => some (double f.rd f.rs1 f.rs2 f.rs3 f.funct3)
  | _ => none

/-- Sign injection, single. -/
def decodeFsgnjS (f : Fields) : Option Instr :=
  match f.funct3 with
  | 0#3 => some (.fsgnjS f.rd f.rs1 f.rs2)
  | 1#3 => some (.fsgnjnS f.rd f.rs1 f.rs2)
  | 2#3 => some (.fsgnjxS f.rd f.rs1 f.rs2)
  | _ => none

/-- Sign injection, double. -/
def decodeFsgnjD (f : Fields) : Option Instr :=
  match f.funct3 with
  | 0#3 => some (.fsgnjD f.rd f.rs1 f.rs2)
  | 1#3 => some (.fsgnjnD f.rd f.rs1 f.rs2)
  | 2#3 => some (.fsgnjxD f.rd f.rs1 f.rs2)
  | _ => none

/-- Minimum and maximum, single. -/
def decodeFminmaxS (f : Fields) : Option Instr :=
  match f.funct3 with
  | 0#3 => some (.fminS f.rd f.rs1 f.rs2)
  | 1#3 => some (.fmaxS f.rd f.rs1 f.rs2)
  | _ => none

/-- Minimum and maximum, double. -/
def decodeFminmaxD (f : Fields) : Option Instr :=
  match f.funct3 with
  | 0#3 => some (.fminD f.rd f.rs1 f.rs2)
  | 1#3 => some (.fmaxD f.rd f.rs1 f.rs2)
  | _ => none

/-- Comparisons, single. -/
def decodeFcmpS (f : Fields) : Option Instr :=
  match f.funct3 with
  | 0#3 => some (.fleS f.rd f.rs1 f.rs2)
  | 1#3 => some (.fltS f.rd f.rs1 f.rs2)
  | 2#3 => some (.feqS f.rd f.rs1 f.rs2)
  | _ => none

/-- Comparisons, double. -/
def decodeFcmpD (f : Fields) : Option Instr :=
  match f.funct3 with
  | 0#3 => some (.fleD f.rd f.rs1 f.rs2)
  | 1#3 => some (.fltD f.rd f.rs1 f.rs2)
  | 2#3 => some (.feqD f.rd f.rs1 f.rs2)
  | _ => none

/-- FCVT to an integer from single. -/
def decodeFcvtIntS (xl : Xlen) (f : Fields) : Option Instr :=
  match f.rs2 with
  | 0#5 => some (.fcvtWS f.rd f.rs1 f.funct3)
  | 1#5 => some (.fcvtWuS f.rd f.rs1 f.funct3)
  | 2#5 => only64 xl (.fcvtLS f.rd f.rs1 f.funct3)
  | 3#5 => only64 xl (.fcvtLuS f.rd f.rs1 f.funct3)
  | _ => none

/-- FCVT to an integer from double. -/
def decodeFcvtIntD (xl : Xlen) (f : Fields) : Option Instr :=
  match f.rs2 with
  | 0#5 => some (.fcvtWD f.rd f.rs1 f.funct3)
  | 1#5 => some (.fcvtWuD f.rd f.rs1 f.funct3)
  | 2#5 => only64 xl (.fcvtLD f.rd f.rs1 f.funct3)
  | 3#5 => only64 xl (.fcvtLuD f.rd f.rs1 f.funct3)
  | _ => none

/-- FCVT.S from an integer. -/
def decodeFcvtSInt (xl : Xlen) (f : Fields) : Option Instr :=
  match f.rs2 with
  | 0#5 => some (.fcvtSW f.rd f.rs1 f.funct3)
  | 1#5 => some (.fcvtSWu f.rd f.rs1 f.funct3)
  | 2#5 => only64 xl (.fcvtSL f.rd f.rs1 f.funct3)
  | 3#5 => only64 xl (.fcvtSLu f.rd f.rs1 f.funct3)
  | _ => none

/-- FCVT.D from an integer. -/
def decodeFcvtDInt (xl : Xlen) (f : Fields) : Option Instr :=
  match f.rs2 with
  | 0#5 => some (.fcvtDW f.rd f.rs1 f.funct3)
  | 1#5 => some (.fcvtDWu f.rd f.rs1 f.funct3)
  | 2#5 => only64 xl (.fcvtDL f.rd f.rs1 f.funct3)
  | 3#5 => only64 xl (.fcvtDLu f.rd f.rs1 f.funct3)
  | _ => none

/-- OP-FP 0x53: funct7, then rs2 or funct3 (30_encoding.md R292). -/
def decodeOpFp (xl : Xlen) (f : Fields) : Option Instr :=
  match f.funct7 with
  | 0x00#7 => some (.faddS f.rd f.rs1 f.rs2 f.funct3)
  | 0x01#7 => some (.faddD f.rd f.rs1 f.rs2 f.funct3)
  | 0x04#7 => some (.fsubS f.rd f.rs1 f.rs2 f.funct3)
  | 0x05#7 => some (.fsubD f.rd f.rs1 f.rs2 f.funct3)
  | 0x08#7 => some (.fmulS f.rd f.rs1 f.rs2 f.funct3)
  | 0x09#7 => some (.fmulD f.rd f.rs1 f.rs2 f.funct3)
  | 0x0c#7 => some (.fdivS f.rd f.rs1 f.rs2 f.funct3)
  | 0x0d#7 => some (.fdivD f.rd f.rs1 f.rs2 f.funct3)
  | 0x2c#7 => rowIf (f.rs2 == 0#5) (.fsqrtS f.rd f.rs1 f.funct3)
  | 0x2d#7 => rowIf (f.rs2 == 0#5) (.fsqrtD f.rd f.rs1 f.funct3)
  | 0x10#7 => decodeFsgnjS f
  | 0x11#7 => decodeFsgnjD f
  | 0x14#7 => decodeFminmaxS f
  | 0x15#7 => decodeFminmaxD f
  | 0x20#7 => rowIf (f.rs2 == 1#5) (.fcvtSD f.rd f.rs1 f.funct3)
  | 0x21#7 => rowIf (f.rs2 == 0#5) (.fcvtDS f.rd f.rs1 f.funct3)
  | 0x50#7 => decodeFcmpS f
  | 0x51#7 => decodeFcmpD f
  | 0x60#7 => decodeFcvtIntS xl f
  | 0x61#7 => decodeFcvtIntD xl f
  | 0x68#7 => decodeFcvtSInt xl f
  | 0x69#7 => decodeFcvtDInt xl f
  | 0x70#7 =>
    match f.rs2, f.funct3 with
    | 0#5, 0#3 => some (.fmvXW f.rd f.rs1)
    | 0#5, 1#3 => some (.fclassS f.rd f.rs1)
    | _, _ => none
  | 0x71#7 =>
    match f.rs2, f.funct3 with
    | 0#5, 0#3 => only64 xl (.fmvXD f.rd f.rs1)
    | 0#5, 1#3 => some (.fclassD f.rd f.rs1)
    | _, _ => none
  | 0x78#7 =>
    match f.rs2, f.funct3 with
    | 0#5, 0#3 => some (.fmvWX f.rd f.rs1)
    | _, _ => none
  | 0x79#7 =>
    match f.rs2, f.funct3 with
    | 0#5, 0#3 => only64 xl (.fmvDX f.rd f.rs1)
    | _, _ => none
  | _ => none

/-- BRANCH 0x63. -/
def decodeBranch (f : Fields) : Option Instr :=
  match f.funct3 with
  | 0#3 => some (.beq f.rs1 f.rs2 f.offB)
  | 1#3 => some (.bne f.rs1 f.rs2 f.offB)
  | 4#3 => some (.blt f.rs1 f.rs2 f.offB)
  | 5#3 => some (.bge f.rs1 f.rs2 f.offB)
  | 6#3 => some (.bltu f.rs1 f.rs2 f.offB)
  | 7#3 => some (.bgeu f.rs1 f.rs2 f.offB)
  | _ => none

/-- JALR 0x67: funct3 must be 0. -/
def decodeJalr (f : Fields) : Option Instr :=
  match f.funct3 with
  | 0#3 => some (.jalr f.rd f.rs1 f.immI)
  | _ => none

/-- SYSTEM 0x73. With funct3 0 only the two whole words ECALL and EBREAK are rows; every other privileged word is
undefined (44_system.md R612). -/
def decodeSystem (f : Fields) : Option Instr :=
  match f.funct3 with
  | 0#3 =>
    match f.funct7, f.rs2, f.rs1, f.rd with
    | 0#7, 0#5, 0#5, 0#5 => some .ecall
    | 0#7, 1#5, 0#5, 0#5 => some .ebreak
    | _, _, _, _ => none
  | 1#3 => some (.csrrw f.rd f.rs1 f.immI)
  | 2#3 => some (.csrrs f.rd f.rs1 f.immI)
  | 3#3 => some (.csrrc f.rd f.rs1 f.immI)
  | 5#3 => some (.csrrwi f.rd f.rs1 f.immI)
  | 6#3 => some (.csrrsi f.rd f.rs1 f.immI)
  | 7#3 => some (.csrrci f.rd f.rs1 f.immI)
  | _ => none

/-- The row a 32-bit word's fields select at a given XLEN, if any (30_encoding.md R290, R300). -/
def decodeFields (xl : Xlen) (f : Fields) : Option Instr :=
  match f.opcode with
  | 0x03#7 => decodeLoad xl f
  | 0x07#7 => decodeLoadFp f
  | 0x0f#7 => decodeMiscMem f
  | 0x13#7 => decodeOpImm xl f
  | 0x17#7 => some (.auipc f.rd f.immU)
  | 0x1b#7 => decodeOpImm32 xl f
  | 0x23#7 => decodeStore xl f
  | 0x27#7 => decodeStoreFp f
  | 0x2f#7 => decodeAmo xl f
  | 0x33#7 => decodeOp f
  | 0x37#7 => some (.lui f.rd f.immU)
  | 0x3b#7 => decodeOp32 xl f
  | 0x43#7 => decodeFma .fmaddS .fmaddD f
  | 0x47#7 => decodeFma .fmsubS .fmsubD f
  | 0x4b#7 => decodeFma .fnmsubS .fnmsubD f
  | 0x4f#7 => decodeFma .fnmaddS .fnmaddD f
  | 0x53#7 => decodeOpFp xl f
  | 0x63#7 => decodeBranch f
  | 0x67#7 => decodeJalr f
  | 0x6f#7 => some (.jal f.rd f.offJ)
  | 0x73#7 => decodeSystem f
  | _ => none

/-- The row a 32-bit word selects at a given XLEN, if any. -/
def decode32 (xl : Xlen) (w : BitVec 32) : Option Instr := decodeFields xl (Fields.ofWord w)

/-! ## Row selection, 16-bit (30_encoding.md R293; 49_c.md R1003 to R1045) -/

/-- Quadrant 0. -/
def decodeQuadrant0 (xl : Xlen) (c : CFields) : Option Instr :=
  match c.funct3 with
  | 0#3 => rowIf (c.nzuimm != 0#8) (.cAddi4spn c.r2 c.nzuimm)
  | 1#3 => some (.cFld c.r2 c.r1 c.uimmD)
  | 2#3 => some (.cLw c.r2 c.r1 c.uimmW)
  | 3#3 =>
    match xl with
    | .rv32 => some (.cFlw c.r2 c.r1 c.uimmW)
    | .rv64 => some (.cLd c.r2 c.r1 c.uimmD)
  | 5#3 => some (.cFsd c.r1 c.r2 c.uimmD)
  | 6#3 => some (.cSw c.r1 c.r2 c.uimmW)
  | 7#3 =>
    match xl with
    | .rv32 => some (.cFsw c.r1 c.r2 c.uimmW)
    | .rv64 => some (.cSd c.r1 c.r2 c.uimmD)
  | _ => none

/-- Quadrant 1, funct3 100: the register arithmetic, by bits [12:10] and [6:5] (49_c.md R1019 to R1027). -/
def decodeQuadrant1Alu (xl : Xlen) (c : CFields) : Option Instr :=
  match c.mid with
  | 0#2 => shiftRow xl c.imm6 (.cSrli c.r1 c.imm6)
  | 1#2 => shiftRow xl c.imm6 (.cSrai c.r1 c.imm6)
  | 2#2 => some (.cAndi c.r1 c.imm6)
  | 3#2 =>
    match c.b12, c.b65 with
    | 0#1, 0#2 => some (.cSub c.r1 c.r2)
    | 0#1, 1#2 => some (.cXor c.r1 c.r2)
    | 0#1, 2#2 => some (.cOr c.r1 c.r2)
    | 0#1, 3#2 => some (.cAnd c.r1 c.r2)
    | 1#1, 0#2 => only64 xl (.cSubw c.r1 c.r2)
    | 1#1, 1#2 => only64 xl (.cAddw c.r1 c.r2)
    | _, _ => none
  | _ => none

/-- Quadrant 1. -/
def decodeQuadrant1 (xl : Xlen) (c : CFields) : Option Instr :=
  match c.funct3 with
  | 0#3 => if c.rd = 0#5 then some (.cNop c.imm6) else some (.cAddi c.rd c.imm6)
  | 1#3 =>
    match xl with
    | .rv32 => some (.cJal c.offJ)
    | .rv64 => rowIf (c.rd != 0#5) (.cAddiw c.rd c.imm6)
  | 2#3 => some (.cLi c.rd c.imm6)
  | 3#3 =>
    if c.rd = 2#5 then rowIf (c.nzimm16 != 0#6) (.cAddi16sp c.nzimm16)
    else rowIf (c.imm6 != 0#6) (.cLui c.rd c.imm6)
  | 4#3 => decodeQuadrant1Alu xl c
  | 5#3 => some (.cJ c.offJ)
  | 6#3 => some (.cBeqz c.r1 c.offB)
  | 7#3 => some (.cBnez c.r1 c.offB)
  | _ => none

/-- Quadrant 2, funct3 100: by bit 12, rs1 and rs2 (49_c.md R1036 to R1040). -/
def decodeQuadrant2Reg (c : CFields) : Option Instr :=
  match c.b12 with
  | 0#1 =>
    if c.rs2 = 0#5 then rowIf (c.rd != 0#5) (.cJr c.rd) else some (.cMv c.rd c.rs2)
  | _ =>
    if c.rs2 = 0#5 then (if c.rd = 0#5 then some .cEbreak else some (.cJalr c.rd)) else some (.cAdd c.rd c.rs2)

/-- Quadrant 2. -/
def decodeQuadrant2 (xl : Xlen) (c : CFields) : Option Instr :=
  match c.funct3 with
  | 0#3 => shiftRow xl c.imm6 (.cSlli c.rd c.imm6)
  | 1#3 => some (.cFldsp c.rd c.uimmLdsp)
  | 2#3 => rowIf (c.rd != 0#5) (.cLwsp c.rd c.uimmLwsp)
  | 3#3 =>
    match xl with
    | .rv32 => some (.cFlwsp c.rd c.uimmLwsp)
    | .rv64 => rowIf (c.rd != 0#5) (.cLdsp c.rd c.uimmLdsp)
  | 4#3 => decodeQuadrant2Reg c
  | 5#3 => some (.cFsdsp c.rs2 c.uimmSdsp)
  | 6#3 => some (.cSwsp c.rs2 c.uimmSwsp)
  | 7#3 =>
    match xl with
    | .rv32 => some (.cFswsp c.rs2 c.uimmSwsp)
    | .rv64 => some (.cSdsp c.rs2 c.uimmSdsp)
  | _ => none

/-- The row a halfword's fields select at a given XLEN, if any. A halfword with bits [1:0] = 11 is no 16-bit
instruction (30_encoding.md R253). -/
def decodeCFields (xl : Xlen) (c : CFields) : Option Instr :=
  match c.op with
  | 0#2 => decodeQuadrant0 xl c
  | 1#2 => decodeQuadrant1 xl c
  | 2#2 => decodeQuadrant2 xl c
  | _ => none

/-- The row a halfword selects at a given XLEN, if any. -/
def decode16 (xl : Xlen) (h : BitVec 16) : Option Instr := decodeCFields xl (CFields.ofHalf h)

/-- The row a parcel selects at a given XLEN, if any: the decoder without the extension check (30_encoding.md R300). -/
def decodeRow (xl : Xlen) : Parcel → Option Instr
  | .half h => decode16 xl h
  | .word w => decode32 xl w

/-! ## Extensions (30_encoding.md R300; 60_exceptions.md R1103) -/

/-- The `ext` column of the opcode table. Zicsr and Zifencei are always present (00_scope.md R16) and stand with
the base set. -/
inductive Ext where
  | base
  | m
  | a
  | f
  | d
  | c
  | cf
  | cd
  deriving DecidableEq, Repr

/-- Whether the configuration has an extension; `C+F` and `C+D` need both (60_exceptions.md R1103). -/
def Ext.enabled (cfg : Config) : Ext → Bool
  | .base => true
  | .m => cfg.extM
  | .a => cfg.extA
  | .f => cfg.extF
  | .d => cfg.extD
  | .c => cfg.extC
  | .cf => cfg.extC && cfg.extF
  | .cd => cfg.extC && cfg.extD

/-- The extension an instruction belongs to. -/
def Instr.ext (i : Instr) : Ext :=
  match i with
  | .lui _ _ => .base
  | .auipc _ _ => .base
  | .addi _ _ _ => .base
  | .slti _ _ _ => .base
  | .sltiu _ _ _ => .base
  | .xori _ _ _ => .base
  | .ori _ _ _ => .base
  | .andi _ _ _ => .base
  | .slli _ _ _ => .base
  | .srli _ _ _ => .base
  | .srai _ _ _ => .base
  | .add _ _ _ => .base
  | .sub _ _ _ => .base
  | .sll _ _ _ => .base
  | .slt _ _ _ => .base
  | .sltu _ _ _ => .base
  | .xor _ _ _ => .base
  | .srl _ _ _ => .base
  | .sra _ _ _ => .base
  | .or _ _ _ => .base
  | .and _ _ _ => .base
  | .addiw _ _ _ => .base
  | .slliw _ _ _ => .base
  | .srliw _ _ _ => .base
  | .sraiw _ _ _ => .base
  | .addw _ _ _ => .base
  | .subw _ _ _ => .base
  | .sllw _ _ _ => .base
  | .srlw _ _ _ => .base
  | .sraw _ _ _ => .base
  | .jal _ _ => .base
  | .jalr _ _ _ => .base
  | .beq _ _ _ => .base
  | .bne _ _ _ => .base
  | .blt _ _ _ => .base
  | .bge _ _ _ => .base
  | .bltu _ _ _ => .base
  | .bgeu _ _ _ => .base
  | .lb _ _ _ => .base
  | .lh _ _ _ => .base
  | .lw _ _ _ => .base
  | .ld _ _ _ => .base
  | .lbu _ _ _ => .base
  | .lhu _ _ _ => .base
  | .lwu _ _ _ => .base
  | .sb _ _ _ => .base
  | .sh _ _ _ => .base
  | .sw _ _ _ => .base
  | .sd _ _ _ => .base
  | .fence _ _ _ _ _ => .base
  | .fenceI _ _ _ => .base
  | .ecall => .base
  | .ebreak => .base
  | .csrrw _ _ _ => .base
  | .csrrs _ _ _ => .base
  | .csrrc _ _ _ => .base
  | .csrrwi _ _ _ => .base
  | .csrrsi _ _ _ => .base
  | .csrrci _ _ _ => .base
  | .mul _ _ _ => .m
  | .mulh _ _ _ => .m
  | .mulhsu _ _ _ => .m
  | .mulhu _ _ _ => .m
  | .div _ _ _ => .m
  | .divu _ _ _ => .m
  | .rem _ _ _ => .m
  | .remu _ _ _ => .m
  | .mulw _ _ _ => .m
  | .divw _ _ _ => .m
  | .divuw _ _ _ => .m
  | .remw _ _ _ => .m
  | .remuw _ _ _ => .m
  | .lrW _ _ _ _ => .a
  | .scW _ _ _ _ _ => .a
  | .lrD _ _ _ _ => .a
  | .scD _ _ _ _ _ => .a
  | .amoswapW _ _ _ _ _ => .a
  | .amoaddW _ _ _ _ _ => .a
  | .amoxorW _ _ _ _ _ => .a
  | .amoandW _ _ _ _ _ => .a
  | .amoorW _ _ _ _ _ => .a
  | .amominW _ _ _ _ _ => .a
  | .amomaxW _ _ _ _ _ => .a
  | .amominuW _ _ _ _ _ => .a
  | .amomaxuW _ _ _ _ _ => .a
  | .amoswapD _ _ _ _ _ => .a
  | .amoaddD _ _ _ _ _ => .a
  | .amoxorD _ _ _ _ _ => .a
  | .amoandD _ _ _ _ _ => .a
  | .amoorD _ _ _ _ _ => .a
  | .amominD _ _ _ _ _ => .a
  | .amomaxD _ _ _ _ _ => .a
  | .amominuD _ _ _ _ _ => .a
  | .amomaxuD _ _ _ _ _ => .a
  | .flw _ _ _ => .f
  | .fsw _ _ _ => .f
  | .fmaddS _ _ _ _ _ => .f
  | .fmsubS _ _ _ _ _ => .f
  | .fnmsubS _ _ _ _ _ => .f
  | .fnmaddS _ _ _ _ _ => .f
  | .faddS _ _ _ _ => .f
  | .fsubS _ _ _ _ => .f
  | .fmulS _ _ _ _ => .f
  | .fdivS _ _ _ _ => .f
  | .fsqrtS _ _ _ => .f
  | .fsgnjS _ _ _ => .f
  | .fsgnjnS _ _ _ => .f
  | .fsgnjxS _ _ _ => .f
  | .fminS _ _ _ => .f
  | .fmaxS _ _ _ => .f
  | .fleS _ _ _ => .f
  | .fltS _ _ _ => .f
  | .feqS _ _ _ => .f
  | .fclassS _ _ => .f
  | .fcvtWS _ _ _ => .f
  | .fcvtSW _ _ _ => .f
  | .fcvtWuS _ _ _ => .f
  | .fcvtSWu _ _ _ => .f
  | .fcvtLS _ _ _ => .f
  | .fcvtSL _ _ _ => .f
  | .fcvtLuS _ _ _ => .f
  | .fcvtSLu _ _ _ => .f
  | .fmvXW _ _ => .f
  | .fmvWX _ _ => .f
  | .fld _ _ _ => .d
  | .fsd _ _ _ => .d
  | .fmaddD _ _ _ _ _ => .d
  | .fmsubD _ _ _ _ _ => .d
  | .fnmsubD _ _ _ _ _ => .d
  | .fnmaddD _ _ _ _ _ => .d
  | .faddD _ _ _ _ => .d
  | .fsubD _ _ _ _ => .d
  | .fmulD _ _ _ _ => .d
  | .fdivD _ _ _ _ => .d
  | .fsqrtD _ _ _ => .d
  | .fsgnjD _ _ _ => .d
  | .fsgnjnD _ _ _ => .d
  | .fsgnjxD _ _ _ => .d
  | .fminD _ _ _ => .d
  | .fmaxD _ _ _ => .d
  | .fleD _ _ _ => .d
  | .fltD _ _ _ => .d
  | .feqD _ _ _ => .d
  | .fclassD _ _ => .d
  | .fcvtWD _ _ _ => .d
  | .fcvtDW _ _ _ => .d
  | .fcvtWuD _ _ _ => .d
  | .fcvtDWu _ _ _ => .d
  | .fcvtLD _ _ _ => .d
  | .fcvtDL _ _ _ => .d
  | .fcvtLuD _ _ _ => .d
  | .fcvtDLu _ _ _ => .d
  | .fcvtSD _ _ _ => .d
  | .fcvtDS _ _ _ => .d
  | .fmvXD _ _ => .d
  | .fmvDX _ _ => .d
  | .cAddi4spn _ _ => .c
  | .cFld _ _ _ => .cd
  | .cLw _ _ _ => .c
  | .cFlw _ _ _ => .cf
  | .cLd _ _ _ => .c
  | .cFsd _ _ _ => .cd
  | .cSw _ _ _ => .c
  | .cFsw _ _ _ => .cf
  | .cSd _ _ _ => .c
  | .cNop _ => .c
  | .cAddi _ _ => .c
  | .cJal _ => .c
  | .cAddiw _ _ => .c
  | .cLi _ _ => .c
  | .cAddi16sp _ => .c
  | .cLui _ _ => .c
  | .cSrli _ _ => .c
  | .cSrai _ _ => .c
  | .cAndi _ _ => .c
  | .cSub _ _ => .c
  | .cXor _ _ => .c
  | .cOr _ _ => .c
  | .cAnd _ _ => .c
  | .cSubw _ _ => .c
  | .cAddw _ _ => .c
  | .cJ _ => .c
  | .cBeqz _ _ => .c
  | .cBnez _ _ => .c
  | .cSlli _ _ => .c
  | .cFldsp _ _ => .cd
  | .cLwsp _ _ => .c
  | .cFlwsp _ _ => .cf
  | .cLdsp _ _ => .c
  | .cJr _ => .c
  | .cMv _ _ => .c
  | .cEbreak => .c
  | .cJalr _ => .c
  | .cAdd _ _ => .c
  | .cFsdsp _ _ => .cd
  | .cSwsp _ _ => .c
  | .cFswsp _ _ => .cf
  | .cSdsp _ _ => .c

/-! ## Decode (40_cycle.md R355, R356) -/

/-- The outcomes of decode. -/
inductive Decoded where
  /-- A row of the table: its instruction executes. -/
  | ok (i : Instr)
  /-- The word selects no row: IllegalInstruction (30_encoding.md R310; 49_c.md R1045). -/
  | illegal
  /-- The word's extension is disabled: UnimplementedInstruction (60_exceptions.md R1103). -/
  | unimplemented
  /-- The bytes given end inside an instruction; memory never answers so (20_memory.md R157). -/
  | truncated
  deriving DecidableEq, Repr

/-- The extension check on a selected row. -/
def checkExt (cfg : Config) : Option Instr → Decoded
  | none => .illegal
  | some i => if i.ext.enabled cfg then .ok i else .unimplemented

/-- Decode one parcel under a configuration. Every 16-bit word is unimplemented when EXT_C is false, reserved or
not (60_exceptions.md R1103 item 2). -/
def decode (cfg : Config) (p : Parcel) : Decoded :=
  match p with
  | .half h => if cfg.extC then checkExt cfg (decode16 cfg.xlen h) else .unimplemented
  | .word w => checkExt cfg (decode32 cfg.xlen w)

/-- Decode the instruction that begins a list of bytes. -/
def decodeBytes (cfg : Config) (bs : List Byte) : Decoded :=
  match parcelOfBytes bs with
  | none => .truncated
  | some (p, _) => decode cfg p

/-! ## Encode (30_encoding.md R252 to R292; 49_c.md) -/

/-- R format. -/
def encR (funct7 : BitVec 7) (funct3 : BitVec 3) (opcode : BitVec 7) (rd rs1 rs2 : BitVec 5) : Parcel :=
  .word (Fields.toWord { funct7, rs2, rs1, funct3, rd, opcode })

/-- I format: imm[11:5], imm[4:0] in place of funct7 and rs2 (30_encoding.md R270). -/
def encI (funct3 : BitVec 3) (opcode : BitVec 7) (rd rs1 : BitVec 5) (imm : BitVec 12) : Parcel :=
  encR (imm.extractLsb' 5 7) funct3 opcode rd rs1 (imm.extractLsb' 0 5)

/-- S format (30_encoding.md R271). -/
def encS (funct3 : BitVec 3) (opcode : BitVec 7) (rs1 rs2 : BitVec 5) (imm : BitVec 12) : Parcel :=
  encR (imm.extractLsb' 5 7) funct3 opcode (imm.extractLsb' 0 5) rs1 rs2

/-- B format, from offset[12:1] (30_encoding.md R272). -/
def encB (funct3 : BitVec 3) (opcode : BitVec 7) (rs1 rs2 : BitVec 5) (off : BitVec 12) : Parcel :=
  encR (off.extractLsb' 11 1 ++ off.extractLsb' 4 6) funct3 opcode (off.extractLsb' 0 4 ++ off.extractLsb' 10 1)
    rs1 rs2

/-- U format, from imm[31:12] (30_encoding.md R273). -/
def encU (opcode : BitVec 7) (rd : BitVec 5) (imm : BitVec 20) : Parcel :=
  encR (imm.extractLsb' 13 7) (imm.extractLsb' 0 3) opcode rd (imm.extractLsb' 3 5) (imm.extractLsb' 8 5)

/-- J format, from offset[20:1] (30_encoding.md R274). -/
def encJ (opcode : BitVec 7) (rd : BitVec 5) (off : BitVec 20) : Parcel :=
  encR (off.extractLsb' 19 1 ++ off.extractLsb' 4 6) (off.extractLsb' 11 3) opcode rd (off.extractLsb' 14 5)
    (off.extractLsb' 0 4 ++ off.extractLsb' 10 1)

/-- I-shift format with a 6-bit shift amount (30_encoding.md R275). -/
def encShift (funct6 : BitVec 6) (funct3 : BitVec 3) (opcode : BitVec 7) (rd rs1 : BitVec 5) (shamt : BitVec 6) :
    Parcel :=
  encR (funct6 ++ shamt.extractLsb' 5 1) funct3 opcode rd rs1 (shamt.extractLsb' 0 5)

/-- R-amo format (30_encoding.md R277). -/
def encAmo (funct5 : BitVec 5) (funct3 : BitVec 3) (rd rs1 rs2 : BitVec 5) (aq rl : Bool) : Parcel :=
  encR (funct5 ++ BitVec.ofBool aq ++ BitVec.ofBool rl) funct3 0x2f#7 rd rs1 rs2

/-- R4 format (30_encoding.md R278). -/
def encR4 (fmt : BitVec 2) (opcode : BitVec 7) (rd rs1 rs2 rs3 : BitVec 5) (rm : BitVec 3) : Parcel :=
  encR (rs3 ++ fmt) rm opcode rd rs1 rs2

/-- Any 16-bit format, from its fields (30_encoding.md R280). -/
def encC (op : BitVec 2) (funct3 : BitVec 3) (b12 : BitVec 1) (mid : BitVec 2) (r1 : BitVec 3) (b65 : BitVec 2)
    (r2 : BitVec 3) : Parcel :=
  .half (CFields.toHalf { funct3, b12, mid, r1, b65, r2, op })

/-- CI and CR formats: bit 12, a full register field, five more bits. -/
def encCI (op : BitVec 2) (funct3 : BitVec 3) (b12 : BitVec 1) (rd : BitVec 5) (low5 : BitVec 5) : Parcel :=
  encC op funct3 b12 (rd.extractLsb' 3 2) (rd.extractLsb' 0 3) (low5.extractLsb' 3 2) (low5.extractLsb' 0 3)

/-- CI format with a 6-bit immediate or shift amount. -/
def encCI6 (op : BitVec 2) (funct3 : BitVec 3) (rd : BitVec 5) (imm : BitVec 6) : Parcel :=
  encCI op funct3 (imm.extractLsb' 5 1) rd (imm.extractLsb' 0 5)

/-- CB-shift and CB-andi formats. -/
def encCB6 (mid : BitVec 2) (r1 : CReg) (imm : BitVec 6) : Parcel :=
  encC 1#2 4#3 (imm.extractLsb' 5 1) mid r1 (imm.extractLsb' 3 2) (imm.extractLsb' 0 3)

/-- CL and CS formats, doubleword scale: uimm[7:3]. -/
def encCLd (funct3 : BitVec 3) (r1 r2 : CReg) (uimm : BitVec 5) : Parcel :=
  encC 0#2 funct3 (uimm.extractLsb' 2 1) (uimm.extractLsb' 0 2) r1 (uimm.extractLsb' 3 2) r2

/-- CL and CS formats, word scale: uimm[6:2]. -/
def encCLw (funct3 : BitVec 3) (r1 r2 : CReg) (uimm : BitVec 5) : Parcel :=
  encC 0#2 funct3 (uimm.extractLsb' 3 1) (uimm.extractLsb' 1 2) r1 (uimm.extractLsb' 0 1 ++ uimm.extractLsb' 4 1) r2

/-- CJ format, from offset[11:1]. -/
def encCJ (funct3 : BitVec 3) (off : BitVec 11) : Parcel :=
  encC 1#2 funct3 (off.extractLsb' 10 1) (off.extractLsb' 3 1 ++ off.extractLsb' 8 1)
    (off.extractLsb' 7 1 ++ off.extractLsb' 9 1 ++ off.extractLsb' 5 1)
    (off.extractLsb' 6 1 ++ off.extractLsb' 2 1) (off.extractLsb' 0 2 ++ off.extractLsb' 4 1)

/-- CB branch format, from offset[8:1]. -/
def encCB (funct3 : BitVec 3) (r1 : CReg) (off : BitVec 8) : Parcel :=
  encC 1#2 funct3 (off.extractLsb' 7 1) (off.extractLsb' 2 2) r1 (off.extractLsb' 5 2)
    (off.extractLsb' 0 2 ++ off.extractLsb' 4 1)

/-- Stack load of a doubleword, uimm[8:3]. -/
def encLdsp (funct3 : BitVec 3) (rd : BitVec 5) (uimm : BitVec 6) : Parcel :=
  encCI 2#2 funct3 (uimm.extractLsb' 2 1) rd (uimm.extractLsb' 0 2 ++ uimm.extractLsb' 3 3)

/-- Stack load of a word, uimm[7:2]. -/
def encLwsp (funct3 : BitVec 3) (rd : BitVec 5) (uimm : BitVec 6) : Parcel :=
  encCI 2#2 funct3 (uimm.extractLsb' 3 1) rd (uimm.extractLsb' 0 3 ++ uimm.extractLsb' 4 2)

/-- Stack store of a doubleword, uimm[8:3]. -/
def encSdsp (funct3 : BitVec 3) (rs2 : BitVec 5) (uimm : BitVec 6) : Parcel :=
  encC 2#2 funct3 (uimm.extractLsb' 2 1) (uimm.extractLsb' 0 2) (uimm.extractLsb' 3 3) (rs2.extractLsb' 3 2)
    (rs2.extractLsb' 0 3)

/-- Stack store of a word, uimm[7:2]. -/
def encSwsp (funct3 : BitVec 3) (rs2 : BitVec 5) (uimm : BitVec 6) : Parcel :=
  encC 2#2 funct3 (uimm.extractLsb' 3 1) (uimm.extractLsb' 1 2) (uimm.extractLsb' 0 1 ++ uimm.extractLsb' 4 2)
    (rs2.extractLsb' 3 2) (rs2.extractLsb' 0 3)

/-- The instruction's own bits, from the encoding of its row. -/
def encode (i : Instr) : Parcel :=
  match i with
  | .lui rd imm => encU 0x37#7 rd imm
  | .auipc rd imm => encU 0x17#7 rd imm
  | .addi rd rs1 imm => encI 0#3 0x13#7 rd rs1 imm
  | .slti rd rs1 imm => encI 2#3 0x13#7 rd rs1 imm
  | .sltiu rd rs1 imm => encI 3#3 0x13#7 rd rs1 imm
  | .xori rd rs1 imm => encI 4#3 0x13#7 rd rs1 imm
  | .ori rd rs1 imm => encI 6#3 0x13#7 rd rs1 imm
  | .andi rd rs1 imm => encI 7#3 0x13#7 rd rs1 imm
  | .slli rd rs1 shamt => encShift 0x00#6 1#3 0x13#7 rd rs1 shamt
  | .srli rd rs1 shamt => encShift 0x00#6 5#3 0x13#7 rd rs1 shamt
  | .srai rd rs1 shamt => encShift 0x10#6 5#3 0x13#7 rd rs1 shamt
  | .add rd rs1 rs2 => encR 0x00#7 0#3 0x33#7 rd rs1 rs2
  | .sub rd rs1 rs2 => encR 0x20#7 0#3 0x33#7 rd rs1 rs2
  | .sll rd rs1 rs2 => encR 0x00#7 1#3 0x33#7 rd rs1 rs2
  | .slt rd rs1 rs2 => encR 0x00#7 2#3 0x33#7 rd rs1 rs2
  | .sltu rd rs1 rs2 => encR 0x00#7 3#3 0x33#7 rd rs1 rs2
  | .xor rd rs1 rs2 => encR 0x00#7 4#3 0x33#7 rd rs1 rs2
  | .srl rd rs1 rs2 => encR 0x00#7 5#3 0x33#7 rd rs1 rs2
  | .sra rd rs1 rs2 => encR 0x20#7 5#3 0x33#7 rd rs1 rs2
  | .or rd rs1 rs2 => encR 0x00#7 6#3 0x33#7 rd rs1 rs2
  | .and rd rs1 rs2 => encR 0x00#7 7#3 0x33#7 rd rs1 rs2
  | .addiw rd rs1 imm => encI 0#3 0x1b#7 rd rs1 imm
  | .slliw rd rs1 shamt => encR 0x00#7 1#3 0x1b#7 rd rs1 shamt
  | .srliw rd rs1 shamt => encR 0x00#7 5#3 0x1b#7 rd rs1 shamt
  | .sraiw rd rs1 shamt => encR 0x20#7 5#3 0x1b#7 rd rs1 shamt
  | .addw rd rs1 rs2 => encR 0x00#7 0#3 0x3b#7 rd rs1 rs2
  | .subw rd rs1 rs2 => encR 0x20#7 0#3 0x3b#7 rd rs1 rs2
  | .sllw rd rs1 rs2 => encR 0x00#7 1#3 0x3b#7 rd rs1 rs2
  | .srlw rd rs1 rs2 => encR 0x00#7 5#3 0x3b#7 rd rs1 rs2
  | .sraw rd rs1 rs2 => encR 0x20#7 5#3 0x3b#7 rd rs1 rs2
  | .jal rd off => encJ 0x6f#7 rd off
  | .jalr rd rs1 imm => encI 0#3 0x67#7 rd rs1 imm
  | .beq rs1 rs2 off => encB 0#3 0x63#7 rs1 rs2 off
  | .bne rs1 rs2 off => encB 1#3 0x63#7 rs1 rs2 off
  | .blt rs1 rs2 off => encB 4#3 0x63#7 rs1 rs2 off
  | .bge rs1 rs2 off => encB 5#3 0x63#7 rs1 rs2 off
  | .bltu rs1 rs2 off => encB 6#3 0x63#7 rs1 rs2 off
  | .bgeu rs1 rs2 off => encB 7#3 0x63#7 rs1 rs2 off
  | .lb rd rs1 imm => encI 0#3 0x03#7 rd rs1 imm
  | .lh rd rs1 imm => encI 1#3 0x03#7 rd rs1 imm
  | .lw rd rs1 imm => encI 2#3 0x03#7 rd rs1 imm
  | .ld rd rs1 imm => encI 3#3 0x03#7 rd rs1 imm
  | .lbu rd rs1 imm => encI 4#3 0x03#7 rd rs1 imm
  | .lhu rd rs1 imm => encI 5#3 0x03#7 rd rs1 imm
  | .lwu rd rs1 imm => encI 6#3 0x03#7 rd rs1 imm
  | .sb rs1 rs2 imm => encS 0#3 0x23#7 rs1 rs2 imm
  | .sh rs1 rs2 imm => encS 1#3 0x23#7 rs1 rs2 imm
  | .sw rs1 rs2 imm => encS 2#3 0x23#7 rs1 rs2 imm
  | .sd rs1 rs2 imm => encS 3#3 0x23#7 rs1 rs2 imm
  | .fence fm pred succ rs1 rd => encR (fm ++ pred.extractLsb' 1 3) 0#3 0x0f#7 rd rs1 (pred.extractLsb' 0 1 ++ succ)
  | .fenceI imm rs1 rd => encI 1#3 0x0f#7 rd rs1 imm
  | .ecall => encR 0#7 0#3 0x73#7 0#5 0#5 0#5
  | .ebreak => encR 0#7 0#3 0x73#7 0#5 0#5 1#5
  | .csrrw rd rs1 csr => encI 1#3 0x73#7 rd rs1 csr
  | .csrrs rd rs1 csr => encI 2#3 0x73#7 rd rs1 csr
  | .csrrc rd rs1 csr => encI 3#3 0x73#7 rd rs1 csr
  | .csrrwi rd uimm csr => encI 5#3 0x73#7 rd uimm csr
  | .csrrsi rd uimm csr => encI 6#3 0x73#7 rd uimm csr
  | .csrrci rd uimm csr => encI 7#3 0x73#7 rd uimm csr
  | .mul rd rs1 rs2 => encR 0x01#7 0#3 0x33#7 rd rs1 rs2
  | .mulh rd rs1 rs2 => encR 0x01#7 1#3 0x33#7 rd rs1 rs2
  | .mulhsu rd rs1 rs2 => encR 0x01#7 2#3 0x33#7 rd rs1 rs2
  | .mulhu rd rs1 rs2 => encR 0x01#7 3#3 0x33#7 rd rs1 rs2
  | .div rd rs1 rs2 => encR 0x01#7 4#3 0x33#7 rd rs1 rs2
  | .divu rd rs1 rs2 => encR 0x01#7 5#3 0x33#7 rd rs1 rs2
  | .rem rd rs1 rs2 => encR 0x01#7 6#3 0x33#7 rd rs1 rs2
  | .remu rd rs1 rs2 => encR 0x01#7 7#3 0x33#7 rd rs1 rs2
  | .mulw rd rs1 rs2 => encR 0x01#7 0#3 0x3b#7 rd rs1 rs2
  | .divw rd rs1 rs2 => encR 0x01#7 4#3 0x3b#7 rd rs1 rs2
  | .divuw rd rs1 rs2 => encR 0x01#7 5#3 0x3b#7 rd rs1 rs2
  | .remw rd rs1 rs2 => encR 0x01#7 6#3 0x3b#7 rd rs1 rs2
  | .remuw rd rs1 rs2 => encR 0x01#7 7#3 0x3b#7 rd rs1 rs2
  | .lrW rd rs1 aq rl => encAmo 0x02#5 2#3 rd rs1 0#5 aq rl
  | .scW rd rs1 rs2 aq rl => encAmo 0x03#5 2#3 rd rs1 rs2 aq rl
  | .lrD rd rs1 aq rl => encAmo 0x02#5 3#3 rd rs1 0#5 aq rl
  | .scD rd rs1 rs2 aq rl => encAmo 0x03#5 3#3 rd rs1 rs2 aq rl
  | .amoswapW rd rs1 rs2 aq rl => encAmo 0x01#5 2#3 rd rs1 rs2 aq rl
  | .amoaddW rd rs1 rs2 aq rl => encAmo 0x00#5 2#3 rd rs1 rs2 aq rl
  | .amoxorW rd rs1 rs2 aq rl => encAmo 0x04#5 2#3 rd rs1 rs2 aq rl
  | .amoandW rd rs1 rs2 aq rl => encAmo 0x0c#5 2#3 rd rs1 rs2 aq rl
  | .amoorW rd rs1 rs2 aq rl => encAmo 0x08#5 2#3 rd rs1 rs2 aq rl
  | .amominW rd rs1 rs2 aq rl => encAmo 0x10#5 2#3 rd rs1 rs2 aq rl
  | .amomaxW rd rs1 rs2 aq rl => encAmo 0x14#5 2#3 rd rs1 rs2 aq rl
  | .amominuW rd rs1 rs2 aq rl => encAmo 0x18#5 2#3 rd rs1 rs2 aq rl
  | .amomaxuW rd rs1 rs2 aq rl => encAmo 0x1c#5 2#3 rd rs1 rs2 aq rl
  | .amoswapD rd rs1 rs2 aq rl => encAmo 0x01#5 3#3 rd rs1 rs2 aq rl
  | .amoaddD rd rs1 rs2 aq rl => encAmo 0x00#5 3#3 rd rs1 rs2 aq rl
  | .amoxorD rd rs1 rs2 aq rl => encAmo 0x04#5 3#3 rd rs1 rs2 aq rl
  | .amoandD rd rs1 rs2 aq rl => encAmo 0x0c#5 3#3 rd rs1 rs2 aq rl
  | .amoorD rd rs1 rs2 aq rl => encAmo 0x08#5 3#3 rd rs1 rs2 aq rl
  | .amominD rd rs1 rs2 aq rl => encAmo 0x10#5 3#3 rd rs1 rs2 aq rl
  | .amomaxD rd rs1 rs2 aq rl => encAmo 0x14#5 3#3 rd rs1 rs2 aq rl
  | .amominuD rd rs1 rs2 aq rl => encAmo 0x18#5 3#3 rd rs1 rs2 aq rl
  | .amomaxuD rd rs1 rs2 aq rl => encAmo 0x1c#5 3#3 rd rs1 rs2 aq rl
  | .flw rd rs1 imm => encI 2#3 0x07#7 rd rs1 imm
  | .fsw rs1 rs2 imm => encS 2#3 0x27#7 rs1 rs2 imm
  | .fmaddS rd rs1 rs2 rs3 rm => encR4 0#2 0x43#7 rd rs1 rs2 rs3 rm
  | .fmsubS rd rs1 rs2 rs3 rm => encR4 0#2 0x47#7 rd rs1 rs2 rs3 rm
  | .fnmsubS rd rs1 rs2 rs3 rm => encR4 0#2 0x4b#7 rd rs1 rs2 rs3 rm
  | .fnmaddS rd rs1 rs2 rs3 rm => encR4 0#2 0x4f#7 rd rs1 rs2 rs3 rm
  | .faddS rd rs1 rs2 rm => encR 0x00#7 rm 0x53#7 rd rs1 rs2
  | .fsubS rd rs1 rs2 rm => encR 0x04#7 rm 0x53#7 rd rs1 rs2
  | .fmulS rd rs1 rs2 rm => encR 0x08#7 rm 0x53#7 rd rs1 rs2
  | .fdivS rd rs1 rs2 rm => encR 0x0c#7 rm 0x53#7 rd rs1 rs2
  | .fsqrtS rd rs1 rm => encR 0x2c#7 rm 0x53#7 rd rs1 0#5
  | .fsgnjS rd rs1 rs2 => encR 0x10#7 0#3 0x53#7 rd rs1 rs2
  | .fsgnjnS rd rs1 rs2 => encR 0x10#7 1#3 0x53#7 rd rs1 rs2
  | .fsgnjxS rd rs1 rs2 => encR 0x10#7 2#3 0x53#7 rd rs1 rs2
  | .fminS rd rs1 rs2 => encR 0x14#7 0#3 0x53#7 rd rs1 rs2
  | .fmaxS rd rs1 rs2 => encR 0x14#7 1#3 0x53#7 rd rs1 rs2
  | .fleS rd rs1 rs2 => encR 0x50#7 0#3 0x53#7 rd rs1 rs2
  | .fltS rd rs1 rs2 => encR 0x50#7 1#3 0x53#7 rd rs1 rs2
  | .feqS rd rs1 rs2 => encR 0x50#7 2#3 0x53#7 rd rs1 rs2
  | .fclassS rd rs1 => encR 0x70#7 1#3 0x53#7 rd rs1 0#5
  | .fcvtWS rd rs1 rm => encR 0x60#7 rm 0x53#7 rd rs1 0#5
  | .fcvtSW rd rs1 rm => encR 0x68#7 rm 0x53#7 rd rs1 0#5
  | .fcvtWuS rd rs1 rm => encR 0x60#7 rm 0x53#7 rd rs1 1#5
  | .fcvtSWu rd rs1 rm => encR 0x68#7 rm 0x53#7 rd rs1 1#5
  | .fcvtLS rd rs1 rm => encR 0x60#7 rm 0x53#7 rd rs1 2#5
  | .fcvtSL rd rs1 rm => encR 0x68#7 rm 0x53#7 rd rs1 2#5
  | .fcvtLuS rd rs1 rm => encR 0x60#7 rm 0x53#7 rd rs1 3#5
  | .fcvtSLu rd rs1 rm => encR 0x68#7 rm 0x53#7 rd rs1 3#5
  | .fmvXW rd rs1 => encR 0x70#7 0#3 0x53#7 rd rs1 0#5
  | .fmvWX rd rs1 => encR 0x78#7 0#3 0x53#7 rd rs1 0#5
  | .fld rd rs1 imm => encI 3#3 0x07#7 rd rs1 imm
  | .fsd rs1 rs2 imm => encS 3#3 0x27#7 rs1 rs2 imm
  | .fmaddD rd rs1 rs2 rs3 rm => encR4 1#2 0x43#7 rd rs1 rs2 rs3 rm
  | .fmsubD rd rs1 rs2 rs3 rm => encR4 1#2 0x47#7 rd rs1 rs2 rs3 rm
  | .fnmsubD rd rs1 rs2 rs3 rm => encR4 1#2 0x4b#7 rd rs1 rs2 rs3 rm
  | .fnmaddD rd rs1 rs2 rs3 rm => encR4 1#2 0x4f#7 rd rs1 rs2 rs3 rm
  | .faddD rd rs1 rs2 rm => encR 0x01#7 rm 0x53#7 rd rs1 rs2
  | .fsubD rd rs1 rs2 rm => encR 0x05#7 rm 0x53#7 rd rs1 rs2
  | .fmulD rd rs1 rs2 rm => encR 0x09#7 rm 0x53#7 rd rs1 rs2
  | .fdivD rd rs1 rs2 rm => encR 0x0d#7 rm 0x53#7 rd rs1 rs2
  | .fsqrtD rd rs1 rm => encR 0x2d#7 rm 0x53#7 rd rs1 0#5
  | .fsgnjD rd rs1 rs2 => encR 0x11#7 0#3 0x53#7 rd rs1 rs2
  | .fsgnjnD rd rs1 rs2 => encR 0x11#7 1#3 0x53#7 rd rs1 rs2
  | .fsgnjxD rd rs1 rs2 => encR 0x11#7 2#3 0x53#7 rd rs1 rs2
  | .fminD rd rs1 rs2 => encR 0x15#7 0#3 0x53#7 rd rs1 rs2
  | .fmaxD rd rs1 rs2 => encR 0x15#7 1#3 0x53#7 rd rs1 rs2
  | .fleD rd rs1 rs2 => encR 0x51#7 0#3 0x53#7 rd rs1 rs2
  | .fltD rd rs1 rs2 => encR 0x51#7 1#3 0x53#7 rd rs1 rs2
  | .feqD rd rs1 rs2 => encR 0x51#7 2#3 0x53#7 rd rs1 rs2
  | .fclassD rd rs1 => encR 0x71#7 1#3 0x53#7 rd rs1 0#5
  | .fcvtWD rd rs1 rm => encR 0x61#7 rm 0x53#7 rd rs1 0#5
  | .fcvtDW rd rs1 rm => encR 0x69#7 rm 0x53#7 rd rs1 0#5
  | .fcvtWuD rd rs1 rm => encR 0x61#7 rm 0x53#7 rd rs1 1#5
  | .fcvtDWu rd rs1 rm => encR 0x69#7 rm 0x53#7 rd rs1 1#5
  | .fcvtLD rd rs1 rm => encR 0x61#7 rm 0x53#7 rd rs1 2#5
  | .fcvtDL rd rs1 rm => encR 0x69#7 rm 0x53#7 rd rs1 2#5
  | .fcvtLuD rd rs1 rm => encR 0x61#7 rm 0x53#7 rd rs1 3#5
  | .fcvtDLu rd rs1 rm => encR 0x69#7 rm 0x53#7 rd rs1 3#5
  | .fcvtSD rd rs1 rm => encR 0x20#7 rm 0x53#7 rd rs1 1#5
  | .fcvtDS rd rs1 rm => encR 0x21#7 rm 0x53#7 rd rs1 0#5
  | .fmvXD rd rs1 => encR 0x71#7 0#3 0x53#7 rd rs1 0#5
  | .fmvDX rd rs1 => encR 0x79#7 0#3 0x53#7 rd rs1 0#5
  | .cAddi4spn rdc nzuimm => encC 0#2 0#3 (nzuimm.extractLsb' 3 1) (nzuimm.extractLsb' 2 1 ++ nzuimm.extractLsb' 7 1)
      (nzuimm.extractLsb' 4 3) (nzuimm.extractLsb' 0 1 ++ nzuimm.extractLsb' 1 1) rdc
  | .cFld rdc rs1c uimm => encCLd 1#3 rs1c rdc uimm
  | .cLw rdc rs1c uimm => encCLw 2#3 rs1c rdc uimm
  | .cFlw rdc rs1c uimm => encCLw 3#3 rs1c rdc uimm
  | .cLd rdc rs1c uimm => encCLd 3#3 rs1c rdc uimm
  | .cFsd rs1c rs2c uimm => encCLd 5#3 rs1c rs2c uimm
  | .cSw rs1c rs2c uimm => encCLw 6#3 rs1c rs2c uimm
  | .cFsw rs1c rs2c uimm => encCLw 7#3 rs1c rs2c uimm
  | .cSd rs1c rs2c uimm => encCLd 7#3 rs1c rs2c uimm
  | .cNop imm => encCI6 1#2 0#3 0#5 imm
  | .cAddi rd imm => encCI6 1#2 0#3 rd imm
  | .cJal off => encCJ 1#3 off
  | .cAddiw rd imm => encCI6 1#2 1#3 rd imm
  | .cLi rd imm => encCI6 1#2 2#3 rd imm
  | .cAddi16sp nzimm => encCI 1#2 3#3 (nzimm.extractLsb' 5 1) 2#5
      (nzimm.extractLsb' 0 1 ++ nzimm.extractLsb' 2 1 ++ nzimm.extractLsb' 3 2 ++ nzimm.extractLsb' 1 1)
  | .cLui rd nzimm => encCI6 1#2 3#3 rd nzimm
  | .cSrli rdc shamt => encCB6 0#2 rdc shamt
  | .cSrai rdc shamt => encCB6 1#2 rdc shamt
  | .cAndi rdc imm => encCB6 2#2 rdc imm
  | .cSub rdc rs2c => encC 1#2 4#3 0#1 3#2 rdc 0#2 rs2c
  | .cXor rdc rs2c => encC 1#2 4#3 0#1 3#2 rdc 1#2 rs2c
  | .cOr rdc rs2c => encC 1#2 4#3 0#1 3#2 rdc 2#2 rs2c
  | .cAnd rdc rs2c => encC 1#2 4#3 0#1 3#2 rdc 3#2 rs2c
  | .cSubw rdc rs2c => encC 1#2 4#3 1#1 3#2 rdc 0#2 rs2c
  | .cAddw rdc rs2c => encC 1#2 4#3 1#1 3#2 rdc 1#2 rs2c
  | .cJ off => encCJ 5#3 off
  | .cBeqz rs1c off => encCB 6#3 rs1c off
  | .cBnez rs1c off => encCB 7#3 rs1c off
  | .cSlli rd shamt => encCI6 2#2 0#3 rd shamt
  | .cFldsp rd uimm => encLdsp 1#3 rd uimm
  | .cLwsp rd uimm => encLwsp 2#3 rd uimm
  | .cFlwsp rd uimm => encLwsp 3#3 rd uimm
  | .cLdsp rd uimm => encLdsp 3#3 rd uimm
  | .cJr rs1 => encCI 2#2 4#3 0#1 rs1 0#5
  | .cMv rd rs2 => encCI 2#2 4#3 0#1 rd rs2
  | .cEbreak => encCI 2#2 4#3 1#1 0#5 0#5
  | .cJalr rs1 => encCI 2#2 4#3 1#1 rs1 0#5
  | .cAdd rd rs2 => encCI 2#2 4#3 1#1 rd rs2
  | .cFsdsp rs2 uimm => encSdsp 5#3 rs2 uimm
  | .cSwsp rs2 uimm => encSwsp 6#3 rs2 uimm
  | .cFswsp rs2 uimm => encSwsp 7#3 rs2 uimm
  | .cSdsp rs2 uimm => encSdsp 7#3 rs2 uimm

/-- `bits` of an instruction: what a trap records for it (40_cycle.md R356). -/
def Instr.bits (i : Instr) : Word := (encode i).bits

/-! ## The expander (30_encoding.md R321; 49_c.md R1000) -/

/-- The register 8 + field that a primed field names (49_c.md R1001). -/
def CReg.full (r : CReg) : BitVec 5 := 1#2 ++ r

/-- The 32-bit base instruction a compressed instruction expands to, by its own rule of 49_c.md; a 32-bit
instruction is its own expansion. -/
def Instr.expand (i : Instr) : Instr :=
  match i with
  | .lui rd imm => .lui rd imm
  | .auipc rd imm => .auipc rd imm
  | .addi rd rs1 imm => .addi rd rs1 imm
  | .slti rd rs1 imm => .slti rd rs1 imm
  | .sltiu rd rs1 imm => .sltiu rd rs1 imm
  | .xori rd rs1 imm => .xori rd rs1 imm
  | .ori rd rs1 imm => .ori rd rs1 imm
  | .andi rd rs1 imm => .andi rd rs1 imm
  | .slli rd rs1 shamt => .slli rd rs1 shamt
  | .srli rd rs1 shamt => .srli rd rs1 shamt
  | .srai rd rs1 shamt => .srai rd rs1 shamt
  | .add rd rs1 rs2 => .add rd rs1 rs2
  | .sub rd rs1 rs2 => .sub rd rs1 rs2
  | .sll rd rs1 rs2 => .sll rd rs1 rs2
  | .slt rd rs1 rs2 => .slt rd rs1 rs2
  | .sltu rd rs1 rs2 => .sltu rd rs1 rs2
  | .xor rd rs1 rs2 => .xor rd rs1 rs2
  | .srl rd rs1 rs2 => .srl rd rs1 rs2
  | .sra rd rs1 rs2 => .sra rd rs1 rs2
  | .or rd rs1 rs2 => .or rd rs1 rs2
  | .and rd rs1 rs2 => .and rd rs1 rs2
  | .addiw rd rs1 imm => .addiw rd rs1 imm
  | .slliw rd rs1 shamt => .slliw rd rs1 shamt
  | .srliw rd rs1 shamt => .srliw rd rs1 shamt
  | .sraiw rd rs1 shamt => .sraiw rd rs1 shamt
  | .addw rd rs1 rs2 => .addw rd rs1 rs2
  | .subw rd rs1 rs2 => .subw rd rs1 rs2
  | .sllw rd rs1 rs2 => .sllw rd rs1 rs2
  | .srlw rd rs1 rs2 => .srlw rd rs1 rs2
  | .sraw rd rs1 rs2 => .sraw rd rs1 rs2
  | .jal rd off => .jal rd off
  | .jalr rd rs1 imm => .jalr rd rs1 imm
  | .beq rs1 rs2 off => .beq rs1 rs2 off
  | .bne rs1 rs2 off => .bne rs1 rs2 off
  | .blt rs1 rs2 off => .blt rs1 rs2 off
  | .bge rs1 rs2 off => .bge rs1 rs2 off
  | .bltu rs1 rs2 off => .bltu rs1 rs2 off
  | .bgeu rs1 rs2 off => .bgeu rs1 rs2 off
  | .lb rd rs1 imm => .lb rd rs1 imm
  | .lh rd rs1 imm => .lh rd rs1 imm
  | .lw rd rs1 imm => .lw rd rs1 imm
  | .ld rd rs1 imm => .ld rd rs1 imm
  | .lbu rd rs1 imm => .lbu rd rs1 imm
  | .lhu rd rs1 imm => .lhu rd rs1 imm
  | .lwu rd rs1 imm => .lwu rd rs1 imm
  | .sb rs1 rs2 imm => .sb rs1 rs2 imm
  | .sh rs1 rs2 imm => .sh rs1 rs2 imm
  | .sw rs1 rs2 imm => .sw rs1 rs2 imm
  | .sd rs1 rs2 imm => .sd rs1 rs2 imm
  | .fence fm pred succ rs1 rd => .fence fm pred succ rs1 rd
  | .fenceI imm rs1 rd => .fenceI imm rs1 rd
  | .ecall => .ecall
  | .ebreak => .ebreak
  | .csrrw rd rs1 csr => .csrrw rd rs1 csr
  | .csrrs rd rs1 csr => .csrrs rd rs1 csr
  | .csrrc rd rs1 csr => .csrrc rd rs1 csr
  | .csrrwi rd uimm csr => .csrrwi rd uimm csr
  | .csrrsi rd uimm csr => .csrrsi rd uimm csr
  | .csrrci rd uimm csr => .csrrci rd uimm csr
  | .mul rd rs1 rs2 => .mul rd rs1 rs2
  | .mulh rd rs1 rs2 => .mulh rd rs1 rs2
  | .mulhsu rd rs1 rs2 => .mulhsu rd rs1 rs2
  | .mulhu rd rs1 rs2 => .mulhu rd rs1 rs2
  | .div rd rs1 rs2 => .div rd rs1 rs2
  | .divu rd rs1 rs2 => .divu rd rs1 rs2
  | .rem rd rs1 rs2 => .rem rd rs1 rs2
  | .remu rd rs1 rs2 => .remu rd rs1 rs2
  | .mulw rd rs1 rs2 => .mulw rd rs1 rs2
  | .divw rd rs1 rs2 => .divw rd rs1 rs2
  | .divuw rd rs1 rs2 => .divuw rd rs1 rs2
  | .remw rd rs1 rs2 => .remw rd rs1 rs2
  | .remuw rd rs1 rs2 => .remuw rd rs1 rs2
  | .lrW rd rs1 aq rl => .lrW rd rs1 aq rl
  | .scW rd rs1 rs2 aq rl => .scW rd rs1 rs2 aq rl
  | .lrD rd rs1 aq rl => .lrD rd rs1 aq rl
  | .scD rd rs1 rs2 aq rl => .scD rd rs1 rs2 aq rl
  | .amoswapW rd rs1 rs2 aq rl => .amoswapW rd rs1 rs2 aq rl
  | .amoaddW rd rs1 rs2 aq rl => .amoaddW rd rs1 rs2 aq rl
  | .amoxorW rd rs1 rs2 aq rl => .amoxorW rd rs1 rs2 aq rl
  | .amoandW rd rs1 rs2 aq rl => .amoandW rd rs1 rs2 aq rl
  | .amoorW rd rs1 rs2 aq rl => .amoorW rd rs1 rs2 aq rl
  | .amominW rd rs1 rs2 aq rl => .amominW rd rs1 rs2 aq rl
  | .amomaxW rd rs1 rs2 aq rl => .amomaxW rd rs1 rs2 aq rl
  | .amominuW rd rs1 rs2 aq rl => .amominuW rd rs1 rs2 aq rl
  | .amomaxuW rd rs1 rs2 aq rl => .amomaxuW rd rs1 rs2 aq rl
  | .amoswapD rd rs1 rs2 aq rl => .amoswapD rd rs1 rs2 aq rl
  | .amoaddD rd rs1 rs2 aq rl => .amoaddD rd rs1 rs2 aq rl
  | .amoxorD rd rs1 rs2 aq rl => .amoxorD rd rs1 rs2 aq rl
  | .amoandD rd rs1 rs2 aq rl => .amoandD rd rs1 rs2 aq rl
  | .amoorD rd rs1 rs2 aq rl => .amoorD rd rs1 rs2 aq rl
  | .amominD rd rs1 rs2 aq rl => .amominD rd rs1 rs2 aq rl
  | .amomaxD rd rs1 rs2 aq rl => .amomaxD rd rs1 rs2 aq rl
  | .amominuD rd rs1 rs2 aq rl => .amominuD rd rs1 rs2 aq rl
  | .amomaxuD rd rs1 rs2 aq rl => .amomaxuD rd rs1 rs2 aq rl
  | .flw rd rs1 imm => .flw rd rs1 imm
  | .fsw rs1 rs2 imm => .fsw rs1 rs2 imm
  | .fmaddS rd rs1 rs2 rs3 rm => .fmaddS rd rs1 rs2 rs3 rm
  | .fmsubS rd rs1 rs2 rs3 rm => .fmsubS rd rs1 rs2 rs3 rm
  | .fnmsubS rd rs1 rs2 rs3 rm => .fnmsubS rd rs1 rs2 rs3 rm
  | .fnmaddS rd rs1 rs2 rs3 rm => .fnmaddS rd rs1 rs2 rs3 rm
  | .faddS rd rs1 rs2 rm => .faddS rd rs1 rs2 rm
  | .fsubS rd rs1 rs2 rm => .fsubS rd rs1 rs2 rm
  | .fmulS rd rs1 rs2 rm => .fmulS rd rs1 rs2 rm
  | .fdivS rd rs1 rs2 rm => .fdivS rd rs1 rs2 rm
  | .fsqrtS rd rs1 rm => .fsqrtS rd rs1 rm
  | .fsgnjS rd rs1 rs2 => .fsgnjS rd rs1 rs2
  | .fsgnjnS rd rs1 rs2 => .fsgnjnS rd rs1 rs2
  | .fsgnjxS rd rs1 rs2 => .fsgnjxS rd rs1 rs2
  | .fminS rd rs1 rs2 => .fminS rd rs1 rs2
  | .fmaxS rd rs1 rs2 => .fmaxS rd rs1 rs2
  | .fleS rd rs1 rs2 => .fleS rd rs1 rs2
  | .fltS rd rs1 rs2 => .fltS rd rs1 rs2
  | .feqS rd rs1 rs2 => .feqS rd rs1 rs2
  | .fclassS rd rs1 => .fclassS rd rs1
  | .fcvtWS rd rs1 rm => .fcvtWS rd rs1 rm
  | .fcvtSW rd rs1 rm => .fcvtSW rd rs1 rm
  | .fcvtWuS rd rs1 rm => .fcvtWuS rd rs1 rm
  | .fcvtSWu rd rs1 rm => .fcvtSWu rd rs1 rm
  | .fcvtLS rd rs1 rm => .fcvtLS rd rs1 rm
  | .fcvtSL rd rs1 rm => .fcvtSL rd rs1 rm
  | .fcvtLuS rd rs1 rm => .fcvtLuS rd rs1 rm
  | .fcvtSLu rd rs1 rm => .fcvtSLu rd rs1 rm
  | .fmvXW rd rs1 => .fmvXW rd rs1
  | .fmvWX rd rs1 => .fmvWX rd rs1
  | .fld rd rs1 imm => .fld rd rs1 imm
  | .fsd rs1 rs2 imm => .fsd rs1 rs2 imm
  | .fmaddD rd rs1 rs2 rs3 rm => .fmaddD rd rs1 rs2 rs3 rm
  | .fmsubD rd rs1 rs2 rs3 rm => .fmsubD rd rs1 rs2 rs3 rm
  | .fnmsubD rd rs1 rs2 rs3 rm => .fnmsubD rd rs1 rs2 rs3 rm
  | .fnmaddD rd rs1 rs2 rs3 rm => .fnmaddD rd rs1 rs2 rs3 rm
  | .faddD rd rs1 rs2 rm => .faddD rd rs1 rs2 rm
  | .fsubD rd rs1 rs2 rm => .fsubD rd rs1 rs2 rm
  | .fmulD rd rs1 rs2 rm => .fmulD rd rs1 rs2 rm
  | .fdivD rd rs1 rs2 rm => .fdivD rd rs1 rs2 rm
  | .fsqrtD rd rs1 rm => .fsqrtD rd rs1 rm
  | .fsgnjD rd rs1 rs2 => .fsgnjD rd rs1 rs2
  | .fsgnjnD rd rs1 rs2 => .fsgnjnD rd rs1 rs2
  | .fsgnjxD rd rs1 rs2 => .fsgnjxD rd rs1 rs2
  | .fminD rd rs1 rs2 => .fminD rd rs1 rs2
  | .fmaxD rd rs1 rs2 => .fmaxD rd rs1 rs2
  | .fleD rd rs1 rs2 => .fleD rd rs1 rs2
  | .fltD rd rs1 rs2 => .fltD rd rs1 rs2
  | .feqD rd rs1 rs2 => .feqD rd rs1 rs2
  | .fclassD rd rs1 => .fclassD rd rs1
  | .fcvtWD rd rs1 rm => .fcvtWD rd rs1 rm
  | .fcvtDW rd rs1 rm => .fcvtDW rd rs1 rm
  | .fcvtWuD rd rs1 rm => .fcvtWuD rd rs1 rm
  | .fcvtDWu rd rs1 rm => .fcvtDWu rd rs1 rm
  | .fcvtLD rd rs1 rm => .fcvtLD rd rs1 rm
  | .fcvtDL rd rs1 rm => .fcvtDL rd rs1 rm
  | .fcvtLuD rd rs1 rm => .fcvtLuD rd rs1 rm
  | .fcvtDLu rd rs1 rm => .fcvtDLu rd rs1 rm
  | .fcvtSD rd rs1 rm => .fcvtSD rd rs1 rm
  | .fcvtDS rd rs1 rm => .fcvtDS rd rs1 rm
  | .fmvXD rd rs1 => .fmvXD rd rs1
  | .fmvDX rd rs1 => .fmvDX rd rs1
  | .cAddi4spn rdc nzuimm => .addi rdc.full 2#5 ((nzuimm ++ 0#2).setWidth 12)
  | .cFld rdc rs1c uimm => .fld rdc.full rs1c.full ((uimm ++ 0#3).setWidth 12)
  | .cLw rdc rs1c uimm => .lw rdc.full rs1c.full ((uimm ++ 0#2).setWidth 12)
  | .cFlw rdc rs1c uimm => .flw rdc.full rs1c.full ((uimm ++ 0#2).setWidth 12)
  | .cLd rdc rs1c uimm => .ld rdc.full rs1c.full ((uimm ++ 0#3).setWidth 12)
  | .cFsd rs1c rs2c uimm => .fsd rs1c.full rs2c.full ((uimm ++ 0#3).setWidth 12)
  | .cSw rs1c rs2c uimm => .sw rs1c.full rs2c.full ((uimm ++ 0#2).setWidth 12)
  | .cFsw rs1c rs2c uimm => .fsw rs1c.full rs2c.full ((uimm ++ 0#2).setWidth 12)
  | .cSd rs1c rs2c uimm => .sd rs1c.full rs2c.full ((uimm ++ 0#3).setWidth 12)
  | .cNop imm => .addi 0#5 0#5 (imm.signExtend 12)
  | .cAddi rd imm => .addi rd rd (imm.signExtend 12)
  | .cJal off => .jal 1#5 (off.signExtend 20)
  | .cAddiw rd imm => .addiw rd rd (imm.signExtend 12)
  | .cLi rd imm => .addi rd 0#5 (imm.signExtend 12)
  | .cAddi16sp nzimm => .addi 2#5 2#5 ((nzimm ++ 0#4).signExtend 12)
  | .cLui rd nzimm => .lui rd (nzimm.signExtend 20)
  | .cSrli rdc shamt => .srli rdc.full rdc.full shamt
  | .cSrai rdc shamt => .srai rdc.full rdc.full shamt
  | .cAndi rdc imm => .andi rdc.full rdc.full (imm.signExtend 12)
  | .cSub rdc rs2c => .sub rdc.full rdc.full rs2c.full
  | .cXor rdc rs2c => .xor rdc.full rdc.full rs2c.full
  | .cOr rdc rs2c => .or rdc.full rdc.full rs2c.full
  | .cAnd rdc rs2c => .and rdc.full rdc.full rs2c.full
  | .cSubw rdc rs2c => .subw rdc.full rdc.full rs2c.full
  | .cAddw rdc rs2c => .addw rdc.full rdc.full rs2c.full
  | .cJ off => .jal 0#5 (off.signExtend 20)
  | .cBeqz rs1c off => .beq rs1c.full 0#5 (off.signExtend 12)
  | .cBnez rs1c off => .bne rs1c.full 0#5 (off.signExtend 12)
  | .cSlli rd shamt => .slli rd rd shamt
  | .cFldsp rd uimm => .fld rd 2#5 ((uimm ++ 0#3).setWidth 12)
  | .cLwsp rd uimm => .lw rd 2#5 ((uimm ++ 0#2).setWidth 12)
  | .cFlwsp rd uimm => .flw rd 2#5 ((uimm ++ 0#2).setWidth 12)
  | .cLdsp rd uimm => .ld rd 2#5 ((uimm ++ 0#3).setWidth 12)
  | .cJr rs1 => .jalr 0#5 rs1 0#12
  | .cMv rd rs2 => .add rd 0#5 rs2
  | .cEbreak => .ebreak
  | .cJalr rs1 => .jalr 1#5 rs1 0#12
  | .cAdd rd rs2 => .add rd rd rs2
  | .cFsdsp rs2 uimm => .fsd 2#5 rs2 ((uimm ++ 0#3).setWidth 12)
  | .cSwsp rs2 uimm => .sw 2#5 rs2 ((uimm ++ 0#2).setWidth 12)
  | .cFswsp rs2 uimm => .fsw 2#5 rs2 ((uimm ++ 0#2).setWidth 12)
  | .cSdsp rs2 uimm => .sd 2#5 rs2 ((uimm ++ 0#3).setWidth 12)

/-! ## The host's question about one row of the table -/

/-- The bytes of an instruction whose bits are `w` below `nbits` and 0 above, up to the longest instruction. -/
def tableBytes (nbits w : Nat) : List Byte := (Parcel.word (BitVec.ofNat 32 (w % 2 ^ nbits))).bytes

/-- The instruction the decoder reads from those bytes: by RV64GC, the configuration of the reset state, and where
that has no row, by RV32GC (log entry 16). -/
def decodeTableWord (nbits w : Nat) : Option Instr :=
  match decodeBytes (Config.gc .rv64 0) (tableBytes nbits w) with
  | .ok i => some i
  | _ =>
    match decodeBytes (Config.gc .rv32 0) (tableBytes nbits w) with
    | .ok i => some i
    | _ => none

end Sys2Proof
end

