-- ==== Sys2Proof/Machine/Fp.lean ====
section
/-! DEFINITION. Floating-point arithmetic (47_f.md R803 to R817; 48_d.md R900). Operands are read as exact values, an
operation gives an exact magnitude, and ONE function rounds it once, as R807 says, with the exceptions it signals. -/

namespace Sys2Proof.Machine

/-- The two formats. -/
inductive Fmt where
  | single
  | double
  deriving DecidableEq, Repr

/-- p, the number of significand bits (47_f.md R807). -/
def Fmt.p : Fmt → Nat
  | .single => 24
  | .double => 53

/-- emin, the least exponent of a normal number (47_f.md R807). -/
def Fmt.emin : Fmt → Int
  | .single => -126
  | .double => -1022

/-- The exponent field of infinities and NaNs, all ones. -/
def Fmt.expMax : Fmt → Nat
  | .single => 255
  | .double => 2047

/-- The place of the sign bit. -/
def Fmt.signBit : Fmt → Nat
  | .single => 31
  | .double => 63

/-- The canonical NaN (47_f.md R805). -/
def Fmt.canonNaN : Fmt → Nat
  | .single => 0x7FC00000
  | .double => 0x7FF8000000000000

/-- The bits of +∞; the bits below it encode the finite magnitudes in rising order. -/
def Fmt.infBits (t : Fmt) : Nat := t.expMax * 2 ^ (t.p - 1)

/-- A value with its sign bit put on a magnitude. -/
def Fmt.withSign (t : Fmt) (neg : Bool) (mag : Nat) : Nat := if neg then 2 ^ t.signBit + mag else mag

/-- What the bits of a format stand for: a NaN, an infinity, or the number (−1)^neg · m · 2^e, zero when m = 0. -/
inductive FVal where
  | nan (signaling : Bool)
  | inf (neg : Bool)
  | fin (neg : Bool) (m : Nat) (e : Int)
  deriving DecidableEq, Repr

/-- The value of the bits (47_f.md R806, R807). -/
def Fmt.value (t : Fmt) (bits : Nat) : FVal :=
  let neg := bits.testBit t.signBit
  let frac := bits % 2 ^ (t.p - 1)
  let expo := bits / 2 ^ (t.p - 1) % (t.expMax + 1)
  if expo = t.expMax then
    if frac = 0 then .inf neg else .nan (!frac.testBit (t.p - 2))
  else if expo = 0 then .fin neg frac (t.emin - (t.p - 1))
  else .fin neg (2 ^ (t.p - 1) + frac) (t.emin - (t.p - 1) + (expo - 1))

/-- A signaling NaN (47_f.md R806). -/
def FVal.isSNaN : FVal → Bool
  | .nan s => s
  | _ => false

/-- Any NaN (47_f.md R806). -/
def FVal.isNaN : FVal → Bool
  | .nan _ => true
  | _ => false

/-- The same value with the opposite sign; a NaN stays itself. -/
def FVal.neg : FVal → FVal
  | .nan s => .nan s
  | .inf n => .inf (!n)
  | .fin n m e => .fin (!n) m e

/-! ### Exact magnitudes -/

/-- An exact positive real: the ratio num / den, or its square root. -/
inductive Mag where
  | ratio (num den : Nat)
  | root (num den : Nat)
  deriving DecidableEq, Repr

/-- Where a real lies between the integer below it and the next one. -/
inductive Place where
  | exact
  | below
  | half
  | above
  deriving DecidableEq, Repr

/-- The place of a remainder, given how its double compares with the unit. -/
def Place.of (zero : Bool) (twice unit : Nat) : Place :=
  if zero then .exact
  else if twice < unit then .below
  else if twice = unit then .half
  else .above

/-- num · 2^k over den as a ratio of naturals, for any integer k. -/
def scale (num den : Nat) (k : Int) : Nat × Nat :=
  (num * 2 ^ k.toNat, den * 2 ^ (-k).toNat)

/-- One digit of the integer square root: try bit `b` on the root found so far. -/
def isqrtFrom (n : Nat) (b : Nat) (r : Nat) : Nat :=
  let t := r + 2 ^ b
  let r' := if t * t ≤ n then t else r
  match b with
  | 0 => r'
  | b' + 1 => isqrtFrom n b' r'

/-- The integer square root: the largest r with r · r ≤ n. -/
def isqrt (n : Nat) : Nat := isqrtFrom n (n.log2 / 2) 0

/-- The floor of the magnitude in units of 2^k, and where the magnitude lies above it. -/
def Mag.units (g : Mag) (k : Int) : Nat × Place :=
  match g with
  | .ratio num den =>
    let q := scale num den (-k)
    let r := q.1 % q.2
    (q.1 / q.2, Place.of (r == 0) (2 * r) q.2)
  | .root num den =>
    let q := scale num den (-(2 * k))
    let n := isqrt (q.1 / q.2)
    (n, Place.of (n * n * q.2 == q.1) (4 * q.1) ((2 * n + 1) * (2 * n + 1) * q.2))

/-- floor(log2 (num / den)). -/
def floorLog2 (num den : Nat) : Int :=
  let d : Int := (num.log2 : Int) - (den.log2 : Int)
  let q := scale num den (-d)
  if q.2 ≤ q.1 then d else d - 1

/-- floor(log2 g) (47_f.md R807). -/
def Mag.floorLog2 (g : Mag) : Int :=
  match g with
  | .ratio num den => Machine.floorLog2 num den
  | .root num den => Machine.floorLog2 num den / 2

/-! ### Rounding -/

/-- Whether a magnitude rounds up to the next integer N + 1 (47_f.md R807). -/
def RoundingMode.up (rm : RoundingMode) (neg : Bool) (n : Nat) (pl : Place) : Bool :=
  match rm, pl with
  | _, .exact => false
  | .rtz, _ => false
  | .rdn, _ => neg
  | .rup, _ => !neg
  | .rne, .below => false
  | .rne, .half => n % 2 == 1
  | .rne, .above => true
  | .rmm, .below => false
  | .rmm, _ => true

/-- The magnitude rounded to an integer number of units 2^k, and whether it was exact. -/
def Mag.roundAt (g : Mag) (rm : RoundingMode) (neg : Bool) (k : Int) : Nat × Bool :=
  let u := g.units k
  (u.1 + (if rm.up neg u.1 u.2 then 1 else 0), u.2 == .exact)

/-- The result of an operation: the bits of the destination format and the exceptions signalled (47_f.md R804). -/
structure FRes where
  bits : Nat
  flags : FFlags
  deriving DecidableEq, Repr

/-- An invalid operation: the canonical NaN and NV (47_f.md R805, R808). -/
def Fmt.invalid (t : Fmt) : FRes := { bits := t.canonNaN, flags := flagNV }

/-- A NaN result from NaN operands: canonical; NV when one of them is signaling (47_f.md R805, R806). -/
def Fmt.nanResult (t : Fmt) (signaling : Bool) : FRes := { bits := t.canonNaN, flags := flagIf signaling flagNV }

/-- An exact result: a sign on a magnitude, no flag. -/
def Fmt.exactly (t : Fmt) (neg : Bool) (mag : Nat) : FRes := { bits := t.withSign neg mag, flags := 0#5 }

/-- The magnitude an overflow gives: ∞, or the largest finite number (47_f.md R807). -/
def Fmt.overflowMag (t : Fmt) (rm : RoundingMode) (neg : Bool) : Nat :=
  match rm with
  | .rne => t.infBits
  | .rmm => t.infBits
  | .rtz => t.infBits - 1
  | .rup => if neg then t.infBits - 1 else t.infBits
  | .rdn => if neg then t.infBits else t.infBits - 1

/-- e = max(floor(log2 |v|), emin) of a magnitude (47_f.md R807). -/
def Fmt.expOf (t : Fmt) (g : Mag) : Int := max g.floorLog2 t.emin

/-- The bits of N units of 2^(e−p+1), for e at least emin and N at most 2^p: a carry out of the significand runs into
the exponent field, and beyond the largest finite number the bits are at least those of ∞. -/
def Fmt.pack (t : Fmt) (e : Int) (n : Nat) : Nat := (e - t.emin).toNat * 2 ^ (t.p - 1) + n

/-- Whether the magnitude, rounded to p bits with an unbounded exponent, is below 2^emin: tininess after rounding
(47_f.md R807). -/
def Fmt.tiny (t : Fmt) (rm : RoundingMode) (neg : Bool) (g : Mag) : Bool :=
  let l := g.floorLog2
  decide (l < t.emin) && !(l == t.emin - 1 && (g.roundAt rm neg (l - (t.p - 1))).1 == 2 ^ t.p)

/-- ROUNDING OF A RESULT: a nonzero exact value, its sign and its magnitude, rounded once to the format
(47_f.md R807). -/
def Fmt.round (t : Fmt) (rm : RoundingMode) (neg : Bool) (g : Mag) : FRes :=
  let e := t.expOf g
  let n := g.roundAt rm neg (e - (t.p - 1))
  let bits := t.pack e n.1
  if t.infBits ≤ bits then
    { bits := t.withSign neg (t.overflowMag rm neg), flags := flagOF ||| flagNX }
  else
    { bits := t.withSign neg bits
      flags := flagIf (!n.2 && t.tiny rm neg g) flagUF ||| flagIf (!n.2) flagNX }

/-- The magnitude m · 2^e. -/
def dyadic (m : Nat) (e : Int) : Mag :=
  let q := scale m 1 e
  .ratio q.1 q.2

/-- A finite value rounded to the format: zero keeps its sign (47_f.md R807, R808). -/
def Fmt.roundFin (t : Fmt) (rm : RoundingMode) (neg : Bool) (m : Nat) (e : Int) : FRes :=
  if m = 0 then t.exactly neg 0 else t.round rm neg (dyadic m e)

/-! ### Addition, multiplication, division, square root -/

/-- (−1)^neg · m as an integer. -/
def signedInt (neg : Bool) (m : Nat) : Int := if neg then -(m : Int) else m

/-- (−1)^neg · m · 2^e in units of 2^k, for k at most e. -/
def align (neg : Bool) (m : Nat) (e k : Int) : Int := signedInt neg (m * 2 ^ (e - k).toNat)

/-- The exact sum of two finite values, rounded; an exact zero takes its sign by R808. -/
def Fmt.addFin (t : Fmt) (rm : RoundingMode) (na : Bool) (ma : Nat) (ea : Int) (nb : Bool) (mb : Nat) (eb : Int) :
    FRes :=
  let k := min ea eb
  let sum := align na ma ea k + align nb mb eb k
  if sum = 0 then t.exactly (if ma = 0 && mb = 0 && na == nb then na else rm == .rdn) 0
  else t.round rm (decide (sum < 0)) (dyadic sum.natAbs k)

/-- The sum of two values of which neither is a NaN (47_f.md R807, R808). -/
def Fmt.addNum (t : Fmt) (rm : RoundingMode) (a b : FVal) : FRes :=
  match a, b with
  | .inf na, .inf nb => if na == nb then t.exactly na t.infBits else t.invalid
  | .inf na, _ => t.exactly na t.infBits
  | _, .inf nb => t.exactly nb t.infBits
  | .fin na ma ea, .fin nb mb eb => t.addFin rm na ma ea nb mb eb
  | _, _ => t.invalid

/-- `round(a + b)` with its flags (47_f.md R805 to R808). -/
def Fmt.add (t : Fmt) (rm : RoundingMode) (a b : FVal) : FRes :=
  if a.isNaN || b.isNaN then t.nanResult (a.isSNaN || b.isSNaN) else t.addNum rm a b

/-- `round(a − b)` with its flags: the sum with the second operand negated. -/
def Fmt.sub (t : Fmt) (rm : RoundingMode) (a b : FVal) : FRes := t.add rm a b.neg

/-- The product of two values of which neither is a NaN and which are not 0 and ∞: exact, an infinity or a number. -/
def FVal.mulNum (a b : FVal) : FVal :=
  match a, b with
  | .fin na ma ea, .fin nb mb eb => .fin (na != nb) (ma * mb) (ea + eb)
  | .inf na, .inf nb => .inf (na != nb)
  | .inf na, .fin nb _ _ => .inf (na != nb)
  | .fin na _ _, .inf nb => .inf (na != nb)
  | _, _ => .nan false

/-- One operand is an infinity and the other a zero (47_f.md R808). -/
def FVal.infTimesZero (a b : FVal) : Bool :=
  match a, b with
  | .inf _, .fin _ 0 _ => true
  | .fin _ 0 _, .inf _ => true
  | _, _ => false

/-- A value that is no NaN, rounded to the format (47_f.md R807). -/
def Fmt.roundNum (t : Fmt) (rm : RoundingMode) (a : FVal) : FRes :=
  match a with
  | .nan s => t.nanResult s
  | .inf n => t.exactly n t.infBits
  | .fin n m e => t.roundFin rm n m e

/-- `round(a × b)` with its flags (47_f.md R805 to R808). -/
def Fmt.mul (t : Fmt) (rm : RoundingMode) (a b : FVal) : FRes :=
  if a.isNaN || b.isNaN then t.nanResult (a.isSNaN || b.isSNaN)
  else if a.infTimesZero b then t.invalid
  else t.roundNum rm (a.mulNum b)

/-- The quotient of two finite values (47_f.md R807, R808). -/
def Fmt.divFin (t : Fmt) (rm : RoundingMode) (neg : Bool) (ma : Nat) (ea : Int) (mb : Nat) (eb : Int) : FRes :=
  if mb = 0 then
    if ma = 0 then t.invalid else { bits := t.withSign neg t.infBits, flags := flagDZ }
  else if ma = 0 then t.exactly neg 0
  else
    let q := scale ma mb (ea - eb)
    t.round rm neg (.ratio q.1 q.2)

/-- `round(a / b)` with its flags (47_f.md R805 to R808). -/
def Fmt.div (t : Fmt) (rm : RoundingMode) (a b : FVal) : FRes :=
  match a, b with
  | .fin na ma ea, .fin nb mb eb => t.divFin rm (na != nb) ma ea mb eb
  | .inf _, .inf _ => t.invalid
  | .inf na, .fin nb _ _ => t.exactly (na != nb) t.infBits
  | .fin na _ _, .inf nb => t.exactly (na != nb) 0
  | _, _ => t.nanResult (a.isSNaN || b.isSNaN)

/-- `round(sqrt(a))` with its flags (47_f.md R805 to R808). -/
def Fmt.sqrt (t : Fmt) (rm : RoundingMode) (a : FVal) : FRes :=
  match a with
  | .nan s => t.nanResult s
  | .inf neg => if neg then t.invalid else t.exactly false t.infBits
  | .fin neg m e =>
    if m = 0 then t.exactly neg 0
    else if neg then t.invalid
    else
      let q := scale m 1 e
      t.round rm false (.root q.1 q.2)

/-- `round(a × b + c)` with its flags, one rounding of the exact result; ∞ × 0 is invalid even when c is a quiet NaN
(47_f.md R809). -/
def Fmt.fma (t : Fmt) (rm : RoundingMode) (a b c : FVal) : FRes :=
  if a.infTimesZero b then t.invalid
  else if a.isNaN || b.isNaN || c.isNaN then t.nanResult (a.isSNaN || b.isSNaN || c.isSNaN)
  else t.addNum rm (a.mulNum b) c

/-! ### Minimum, maximum, comparison, classification, sign injection -/

/-- The bits of a number as a place in the order −∞ … −0 < +0 … +∞ (47_f.md R810). -/
def Fmt.orderKey (t : Fmt) (bits : Nat) : Int :=
  if bits.testBit t.signBit then -((bits % 2 ^ t.signBit : Nat) : Int) - 1 else ((bits % 2 ^ t.signBit : Nat) : Int)

/-- FMIN and FMAX share all but which operand they take of two numbers (47_f.md R810). -/
def Fmt.pick (t : Fmt) (first : Bool) (a b : Nat) : FRes :=
  let va := t.value a
  let vb := t.value b
  let fl := flagIf (va.isSNaN || vb.isSNaN) flagNV
  if va.isNaN && vb.isNaN then { bits := t.canonNaN, flags := fl }
  else if va.isNaN then { bits := b, flags := fl }
  else if vb.isNaN then { bits := a, flags := fl }
  else { bits := if first then a else b, flags := fl }

/-- `min(a, b)` (47_f.md R810). -/
def Fmt.min (t : Fmt) (a b : Nat) : FRes := t.pick (decide (t.orderKey a ≤ t.orderKey b)) a b

/-- `max(a, b)` (47_f.md R810). -/
def Fmt.max (t : Fmt) (a b : Nat) : FRes := t.pick (decide (t.orderKey b ≤ t.orderKey a)) a b

/-- a < b as extended reals; false when either is a NaN (47_f.md R811). -/
def FVal.lt (a b : FVal) : Bool :=
  match a, b with
  | .fin na ma ea, .fin nb mb eb =>
    decide (align na ma ea (Min.min ea eb) < align nb mb eb (Min.min ea eb))
  | .inf na, .inf nb => na && !nb
  | .inf na, .fin _ _ _ => na
  | .fin _ _ _, .inf nb => !nb
  | _, _ => false

/-- a = b as extended reals; false when either is a NaN (47_f.md R811). -/
def FVal.eq (a b : FVal) : Bool :=
  match a, b with
  | .fin na ma ea, .fin nb mb eb =>
    decide (align na ma ea (Min.min ea eb) = align nb mb eb (Min.min ea eb))
  | .inf na, .inf nb => na == nb
  | _, _ => false

/-- FEQ, a quiet comparison (47_f.md R811). -/
def feq (a b : FVal) : FRes :=
  { bits := if a.eq b then 1 else 0, flags := flagIf (a.isSNaN || b.isSNaN) flagNV }

/-- FLT, a signaling comparison (47_f.md R811). -/
def flt (a b : FVal) : FRes :=
  { bits := if a.lt b then 1 else 0, flags := flagIf (a.isNaN || b.isNaN) flagNV }

/-- FLE, a signaling comparison (47_f.md R811). -/
def fle (a b : FVal) : FRes :=
  { bits := if a.lt b || a.eq b then 1 else 0, flags := flagIf (a.isNaN || b.isNaN) flagNV }

/-- The bit FCLASS sets (47_f.md R812). A finite number is normal when its significand has p bits. -/
def Fmt.classBit (t : Fmt) (v : FVal) : Nat :=
  match v with
  | .nan s => if s then 8 else 9
  | .inf neg => if neg then 0 else 7
  | .fin neg m _ =>
    if m = 0 then if neg then 3 else 4
    else if m < 2 ^ (t.p - 1) then if neg then 2 else 5
    else if neg then 1 else 6

/-- FCLASS (47_f.md R812). -/
def Fmt.classify (t : Fmt) (v : FVal) : Nat := 2 ^ t.classBit v

/-- Sign injection: the first operand's bits with a given sign (47_f.md R817). -/
def signInject {n : Nat} (sign : Bool) (a : BitVec (n + 1)) : BitVec (n + 1) :=
  BitVec.cons sign (a.setWidth n)

/-! ### Conversions -/

/-- An integer destination: its least and its greatest value (47_f.md R813). -/
structure IntRange where
  lo : Int
  hi : Int
  deriving DecidableEq, Repr

/-- The destination of FCVT.W. -/
def rangeW : IntRange := { lo := -(2 ^ 31), hi := 2 ^ 31 - 1 }

/-- The destination of FCVT.WU. -/
def rangeWu : IntRange := { lo := 0, hi := 2 ^ 32 - 1 }

/-- The destination of FCVT.L. -/
def rangeL : IntRange := { lo := -(2 ^ 63), hi := 2 ^ 63 - 1 }

/-- The destination of FCVT.LU. -/
def rangeLu : IntRange := { lo := 0, hi := 2 ^ 64 - 1 }

/-- The result of a conversion to integer and its flags. -/
structure IntRes where
  value : Int
  flags : FFlags
  deriving DecidableEq, Repr

/-- Saturation of a rounded value: NV outside the range, else NX when the rounding was inexact (47_f.md R813). -/
def IntRange.clamp (r : IntRange) (v : Int) (exact : Bool) : IntRes :=
  if v < r.lo then { value := r.lo, flags := flagNV }
  else if r.hi < v then { value := r.hi, flags := flagNV }
  else { value := v, flags := flagIf (!exact) flagNX }

/-- Conversion to integer (47_f.md R813). -/
def FVal.toInt (r : IntRange) (rm : RoundingMode) (a : FVal) : IntRes :=
  match a with
  | .nan _ => { value := r.hi, flags := flagNV }
  | .inf neg => { value := if neg then r.lo else r.hi, flags := flagNV }
  | .fin neg m e =>
    let n := (dyadic m e).roundAt rm neg 0
    r.clamp (signedInt neg n.1) n.2

/-- Conversion from integer; zero gives +0 (47_f.md R814). -/
def Fmt.ofInt (t : Fmt) (rm : RoundingMode) (v : Int) : FRes := t.roundFin rm (decide (v < 0)) v.natAbs 0

end Sys2Proof.Machine
end

