-- ==== Sys2Proof/Machine/Float.lean ====
section
/-! DEFINITION. The F instructions (47_f.md). -/

namespace Sys2Proof.Machine

/-- The single-precision operand of a register as a value (47_f.md R800). -/
def State.valS (s : State) (r : FReg) : FVal := Fmt.single.value (s.readS r).toNat

/-- The check of the rounding mode, before anything else the instruction does (47_f.md R803, R818). -/
def State.withRounding (s : State) (rm : BitVec 3) (bits : Word) (k : RoundingMode → Out) : Out :=
  match s.roundingMode rm with
  | none => .next (s.trap .illegalInstruction bits)
  | some m => k m

/-- A single-precision result: the boxed destination and the flags in one retirement (47_f.md R801, R804). -/
def State.setS (s : State) (rd : FReg) (r : FRes) : Out :=
  .next (((s.writeS rd (BitVec.ofNat 32 r.bits)).setFlags r.flags).retire 4)

/-- A result for an integer register with flags: a comparison (47_f.md R804, R811). -/
def State.setCmp (s : State) (rd : Reg) (r : FRes) : Out :=
  .next (((s.writeX rd (BitVec.ofNat 64 r.bits)).setFlags r.flags).retire 4)

/-- A 32-bit integer result, sign-extended to XLEN, with flags (47_f.md R804, R813). -/
def State.setInt32 (s : State) (rd : Reg) (r : IntRes) : Out :=
  .next (((s.writeX rd (s.cfg.xlen.sext (BitVec.ofInt 32 r.value))).setFlags r.flags).retire 4)

/-- A 64-bit integer result with flags (47_f.md R804, R813). -/
def State.setInt64 (s : State) (rd : Reg) (r : IntRes) : Out :=
  .next (((s.writeX rd (BitVec.ofInt 64 r.value)).setFlags r.flags).retire 4)

/-- `sint(x[rs1][31:0])` (47_f.md R814). -/
def State.sintW (s : State) (rs1 : Reg) : Int := ((s.readX rs1).setWidth 32).toInt

/-- `uint(x[rs1][31:0])` (47_f.md R814). -/
def State.uintW (s : State) (rs1 : Reg) : Int := (((s.readX rs1).setWidth 32).toNat : Int)

/-- `sint(x[rs1])`, 64 bits (47_f.md R814). -/
def State.sintL (s : State) (rs1 : Reg) : Int := (s.readX rs1).toInt

/-- `uint(x[rs1])`, 64 bits (47_f.md R814). -/
def State.uintL (s : State) (rs1 : Reg) : Int := ((s.readX rs1).toNat : Int)

/-- A floating-point load of `n` bytes at `ea`, the register value made by `box` (47_f.md R815). -/
def State.loadF (s : State) (n : Nat) (box : Word → BitVec 64) (rd : FReg) (rs1 : Reg) (imm : BitVec 12) (len : Nat) :
    Out :=
  s.withRead (s.ea rs1 (s.cfg.xlen.sext imm)) n fun v => s.setF rd (box v) len

/-- A floating-point store of the low `n` bytes of the raw register at `ea` (47_f.md R800, R815). -/
def State.storeF (s : State) (n : Nat) (rs1 : Reg) (rs2 : FReg) (imm : BitVec 12) (len : Nat) : Out :=
  s.withWrite (s.ea rs1 (s.cfg.xlen.sext imm)) n (s.readF rs2) fun t => .next (t.retire len)

/-- The register value of a loaded single: boxed (47_f.md R801). -/
def boxLoaded (v : Word) : BitVec 64 := boxS (v.setWidth 32)

/-- FLW (47_f.md R820). -/
def execFlw (rd : FReg) (rs1 : Reg) (imm : BitVec 12) (s : State) : Out := s.loadF 4 boxLoaded rd rs1 imm 4

/-- FSW (47_f.md R821). -/
def execFsw (rs1 : Reg) (rs2 : FReg) (imm : BitVec 12) (s : State) : Out := s.storeF 4 rs1 rs2 imm 4

/-- FMADD.S (47_f.md R822). -/
def execFmaddS (rd rs1 rs2 rs3 : FReg) (rm : BitVec 3) (s : State) : Out :=
  s.withRounding rm (Instr.fmaddS rd rs1 rs2 rs3 rm).bits fun m =>
    s.setS rd (Fmt.single.fma m (s.valS rs1) (s.valS rs2) (s.valS rs3))

/-- FMSUB.S (47_f.md R823). -/
def execFmsubS (rd rs1 rs2 rs3 : FReg) (rm : BitVec 3) (s : State) : Out :=
  s.withRounding rm (Instr.fmsubS rd rs1 rs2 rs3 rm).bits fun m =>
    s.setS rd (Fmt.single.fma m (s.valS rs1) (s.valS rs2) (s.valS rs3).neg)

/-- FNMSUB.S (47_f.md R824). -/
def execFnmsubS (rd rs1 rs2 rs3 : FReg) (rm : BitVec 3) (s : State) : Out :=
  s.withRounding rm (Instr.fnmsubS rd rs1 rs2 rs3 rm).bits fun m =>
    s.setS rd (Fmt.single.fma m (s.valS rs1).neg (s.valS rs2) (s.valS rs3))

/-- FNMADD.S (47_f.md R825). -/
def execFnmaddS (rd rs1 rs2 rs3 : FReg) (rm : BitVec 3) (s : State) : Out :=
  s.withRounding rm (Instr.fnmaddS rd rs1 rs2 rs3 rm).bits fun m =>
    s.setS rd (Fmt.single.fma m (s.valS rs1).neg (s.valS rs2) (s.valS rs3).neg)

/-- FADD.S (47_f.md R826). -/
def execFaddS (rd rs1 rs2 : FReg) (rm : BitVec 3) (s : State) : Out :=
  s.withRounding rm (Instr.faddS rd rs1 rs2 rm).bits fun m =>
    s.setS rd (Fmt.single.add m (s.valS rs1) (s.valS rs2))

/-- FSUB.S (47_f.md R827). -/
def execFsubS (rd rs1 rs2 : FReg) (rm : BitVec 3) (s : State) : Out :=
  s.withRounding rm (Instr.fsubS rd rs1 rs2 rm).bits fun m =>
    s.setS rd (Fmt.single.sub m (s.valS rs1) (s.valS rs2))

/-- FMUL.S (47_f.md R828). -/
def execFmulS (rd rs1 rs2 : FReg) (rm : BitVec 3) (s : State) : Out :=
  s.withRounding rm (Instr.fmulS rd rs1 rs2 rm).bits fun m =>
    s.setS rd (Fmt.single.mul m (s.valS rs1) (s.valS rs2))

/-- FDIV.S (47_f.md R829). -/
def execFdivS (rd rs1 rs2 : FReg) (rm : BitVec 3) (s : State) : Out :=
  s.withRounding rm (Instr.fdivS rd rs1 rs2 rm).bits fun m =>
    s.setS rd (Fmt.single.div m (s.valS rs1) (s.valS rs2))

/-- FSQRT.S (47_f.md R830). -/
def execFsqrtS (rd rs1 : FReg) (rm : BitVec 3) (s : State) : Out :=
  s.withRounding rm (Instr.fsqrtS rd rs1 rm).bits fun m =>
    s.setS rd (Fmt.single.sqrt m (s.valS rs1))

/-- FSGNJ.S (47_f.md R831). -/
def execFsgnjS (rd rs1 rs2 : FReg) (s : State) : Out :=
  s.setF rd (boxS (signInject (n := 31) (s.readS rs2).msb (s.readS rs1))) 4

/-- FSGNJN.S (47_f.md R832). -/
def execFsgnjnS (rd rs1 rs2 : FReg) (s : State) : Out :=
  s.setF rd (boxS (signInject (n := 31) (!(s.readS rs2).msb) (s.readS rs1))) 4

/-- FSGNJX.S (47_f.md R833). -/
def execFsgnjxS (rd rs1 rs2 : FReg) (s : State) : Out :=
  s.setF rd (boxS (signInject (n := 31) ((s.readS rs1).msb != (s.readS rs2).msb) (s.readS rs1))) 4

/-- FMIN.S (47_f.md R834). -/
def execFminS (rd rs1 rs2 : FReg) (s : State) : Out :=
  s.setS rd (Fmt.single.min (s.readS rs1).toNat (s.readS rs2).toNat)

/-- FMAX.S (47_f.md R835). -/
def execFmaxS (rd rs1 rs2 : FReg) (s : State) : Out :=
  s.setS rd (Fmt.single.max (s.readS rs1).toNat (s.readS rs2).toNat)

/-- FLE.S (47_f.md R841). -/
def execFleS (rd : Reg) (rs1 rs2 : FReg) (s : State) : Out := s.setCmp rd (fle (s.valS rs1) (s.valS rs2))

/-- FLT.S (47_f.md R840). -/
def execFltS (rd : Reg) (rs1 rs2 : FReg) (s : State) : Out := s.setCmp rd (flt (s.valS rs1) (s.valS rs2))

/-- FEQ.S (47_f.md R839). -/
def execFeqS (rd : Reg) (rs1 rs2 : FReg) (s : State) : Out := s.setCmp rd (feq (s.valS rs1) (s.valS rs2))

/-- FCLASS.S (47_f.md R842). -/
def execFclassS (rd : Reg) (rs1 : FReg) (s : State) : Out :=
  s.setX rd (BitVec.ofNat 64 (Fmt.single.classify (s.valS rs1))) 4

/-- FCVT.W.S (47_f.md R836). -/
def execFcvtWS (rd : Reg) (rs1 : FReg) (rm : BitVec 3) (s : State) : Out :=
  s.withRounding rm (Instr.fcvtWS rd rs1 rm).bits fun m =>
    s.setInt32 rd ((s.valS rs1).toInt rangeW m)

/-- FCVT.S.W (47_f.md R843). -/
def execFcvtSW (rd : FReg) (rs1 : Reg) (rm : BitVec 3) (s : State) : Out :=
  s.withRounding rm (Instr.fcvtSW rd rs1 rm).bits fun m =>
    s.setS rd (Fmt.single.ofInt m (s.sintW rs1))

/-- FCVT.WU.S (47_f.md R837). -/
def execFcvtWuS (rd : Reg) (rs1 : FReg) (rm : BitVec 3) (s : State) : Out :=
  s.withRounding rm (Instr.fcvtWuS rd rs1 rm).bits fun m =>
    s.setInt32 rd ((s.valS rs1).toInt rangeWu m)

/-- FCVT.S.WU (47_f.md R844). -/
def execFcvtSWu (rd : FReg) (rs1 : Reg) (rm : BitVec 3) (s : State) : Out :=
  s.withRounding rm (Instr.fcvtSWu rd rs1 rm).bits fun m =>
    s.setS rd (Fmt.single.ofInt m (s.uintW rs1))

/-- FCVT.L.S (47_f.md R846). -/
def execFcvtLS (rd : Reg) (rs1 : FReg) (rm : BitVec 3) (s : State) : Out :=
  s.withRounding rm (Instr.fcvtLS rd rs1 rm).bits fun m =>
    s.setInt64 rd ((s.valS rs1).toInt rangeL m)

/-- FCVT.S.L (47_f.md R848). -/
def execFcvtSL (rd : FReg) (rs1 : Reg) (rm : BitVec 3) (s : State) : Out :=
  s.withRounding rm (Instr.fcvtSL rd rs1 rm).bits fun m =>
    s.setS rd (Fmt.single.ofInt m (s.sintL rs1))

/-- FCVT.LU.S (47_f.md R847). -/
def execFcvtLuS (rd : Reg) (rs1 : FReg) (rm : BitVec 3) (s : State) : Out :=
  s.withRounding rm (Instr.fcvtLuS rd rs1 rm).bits fun m =>
    s.setInt64 rd ((s.valS rs1).toInt rangeLu m)

/-- FCVT.S.LU (47_f.md R849). -/
def execFcvtSLu (rd : FReg) (rs1 : Reg) (rm : BitVec 3) (s : State) : Out :=
  s.withRounding rm (Instr.fcvtSLu rd rs1 rm).bits fun m =>
    s.setS rd (Fmt.single.ofInt m (s.uintL rs1))

/-- FMV.X.W (47_f.md R838). -/
def execFmvXW (rd : Reg) (rs1 : FReg) (s : State) : Out :=
  s.setX rd (s.cfg.xlen.sext ((s.readF rs1).setWidth 32)) 4

/-- FMV.W.X (47_f.md R845). -/
def execFmvWX (rd : FReg) (rs1 : Reg) (s : State) : Out := s.setF rd (boxS ((s.readX rs1).setWidth 32)) 4

end Sys2Proof.Machine
end

