-- ==== Sys2Proof/Machine/LoadStore.lean ====
section
/-! DEFINITION. The integer loads and stores (43_loadstore.md): any alignment, one access, its fault the trap. -/

namespace Sys2Proof.Machine

/-- An integer load of `n` bytes at `ea`, extended by `ext` (43_loadstore.md R550). -/
def State.load (s : State) (n : Nat) (ext : Word → Word) (rd rs1 : Reg) (imm : BitVec 12) (len : Nat) : Out :=
  s.withRead (s.ea rs1 (s.cfg.xlen.sext imm)) n fun v => s.setX rd (ext v) len

/-- An integer store of the low `n` bytes of x[rs2] at `ea` (43_loadstore.md R550). -/
def State.store (s : State) (n : Nat) (rs1 rs2 : Reg) (imm : BitVec 12) (len : Nat) : Out :=
  s.withWrite (s.ea rs1 (s.cfg.xlen.sext imm)) n (s.readX rs2) fun t => .next (t.retire len)

/-- `sext_8` of a loaded byte. -/
def State.sext8 (s : State) (v : Word) : Word := s.cfg.xlen.sext (v.setWidth 8)

/-- `sext_16` of a loaded halfword. -/
def State.sext16 (s : State) (v : Word) : Word := s.cfg.xlen.sext (v.setWidth 16)

/-- `sext_32` of a loaded word. -/
def State.sext32 (s : State) (v : Word) : Word := s.cfg.xlen.sext (v.setWidth 32)

/-- A loaded value is zero-extended as it stands. -/
def zextLoaded (v : Word) : Word := v

/-- LB (43_loadstore.md R551). -/
def execLb (rd rs1 : Reg) (imm : BitVec 12) (s : State) : Out := s.load 1 s.sext8 rd rs1 imm 4

/-- LH (43_loadstore.md R552). -/
def execLh (rd rs1 : Reg) (imm : BitVec 12) (s : State) : Out := s.load 2 s.sext16 rd rs1 imm 4

/-- LW (43_loadstore.md R553). -/
def execLw (rd rs1 : Reg) (imm : BitVec 12) (s : State) : Out := s.load 4 s.sext32 rd rs1 imm 4

/-- LD (43_loadstore.md R554). -/
def execLd (rd rs1 : Reg) (imm : BitVec 12) (s : State) : Out := s.load 8 zextLoaded rd rs1 imm 4

/-- LBU (43_loadstore.md R555). -/
def execLbu (rd rs1 : Reg) (imm : BitVec 12) (s : State) : Out := s.load 1 zextLoaded rd rs1 imm 4

/-- LHU (43_loadstore.md R556). -/
def execLhu (rd rs1 : Reg) (imm : BitVec 12) (s : State) : Out := s.load 2 zextLoaded rd rs1 imm 4

/-- LWU (43_loadstore.md R557). -/
def execLwu (rd rs1 : Reg) (imm : BitVec 12) (s : State) : Out := s.load 4 zextLoaded rd rs1 imm 4

/-- SB (43_loadstore.md R558). -/
def execSb (rs1 rs2 : Reg) (imm : BitVec 12) (s : State) : Out := s.store 1 rs1 rs2 imm 4

/-- SH (43_loadstore.md R559). -/
def execSh (rs1 rs2 : Reg) (imm : BitVec 12) (s : State) : Out := s.store 2 rs1 rs2 imm 4

/-- SW (43_loadstore.md R560). -/
def execSw (rs1 rs2 : Reg) (imm : BitVec 12) (s : State) : Out := s.store 4 rs1 rs2 imm 4

/-- SD (43_loadstore.md R561). -/
def execSd (rs1 rs2 : Reg) (imm : BitVec 12) (s : State) : Out := s.store 8 rs1 rs2 imm 4

end Sys2Proof.Machine
end

