-- ==== Sys2Proof/Machine/Double.lean ====
section
/-! DEFINITION. The D instructions (48_d.md). -/

namespace Sys2Proof.Machine

/-- The double-precision operand of a register as a value: all 64 bits, no boxing test (48_d.md R900). -/
def State.valD (s : State) (r : FReg) : FVal := Fmt.double.value (s.readF r).toNat

/-- A double-precision result: the destination and the flags in one retirement (48_d.md R900; 47_f.md R804). -/
def State.setD (s : State) (rd : FReg) (r : FRes) : Out :=
  .next (((s.writeF rd (BitVec.ofNat 64 r.bits)).setFlags r.flags).retire 4)

/-- FLD (48_d.md R901). -/
def execFld (rd : FReg) (rs1 : Reg) (imm : BitVec 12) (s : State) : Out := s.loadF 8 zextLoaded rd rs1 imm 4

/-- FSD (48_d.md R902). -/
def execFsd (rs1 : Reg) (rs2 : FReg) (imm : BitVec 12) (s : State) : Out := s.storeF 8 rs1 rs2 imm 4

/-- FMADD.D (48_d.md R903). -/
def execFmaddD (rd rs1 rs2 rs3 : FReg) (rm : BitVec 3) (s : State) : Out :=
  s.withRounding rm (Instr.fmaddD rd rs1 rs2 rs3 rm).bits fun m =>
    s.setD rd (Fmt.double.fma m (s.valD rs1) (s.valD rs2) (s.valD rs3))

/-- FMSUB.D (48_d.md R904). -/
def execFmsubD (rd rs1 rs2 rs3 : FReg) (rm : BitVec 3) (s : State) : Out :=
  s.withRounding rm (Instr.fmsubD rd rs1 rs2 rs3 rm).bits fun m =>
    s.setD rd (Fmt.double.fma m (s.valD rs1) (s.valD rs2) (s.valD rs3).neg)

/-- FNMSUB.D (48_d.md R905). -/
def execFnmsubD (rd rs1 rs2 rs3 : FReg) (rm : BitVec 3) (s : State) : Out :=
  s.withRounding rm (Instr.fnmsubD rd rs1 rs2 rs3 rm).bits fun m =>
    s.setD rd (Fmt.double.fma m (s.valD rs1).neg (s.valD rs2) (s.valD rs3))

/-- FNMADD.D (48_d.md R906). -/
def execFnmaddD (rd rs1 rs2 rs3 : FReg) (rm : BitVec 3) (s : State) : Out :=
  s.withRounding rm (Instr.fnmaddD rd rs1 rs2 rs3 rm).bits fun m =>
    s.setD rd (Fmt.double.fma m (s.valD rs1).neg (s.valD rs2) (s.valD rs3).neg)

/-- FADD.D (48_d.md R907). -/
def execFaddD (rd rs1 rs2 : FReg) (rm : BitVec 3) (s : State) : Out :=
  s.withRounding rm (Instr.faddD rd rs1 rs2 rm).bits fun m =>
    s.setD rd (Fmt.double.add m (s.valD rs1) (s.valD rs2))

/-- FSUB.D (48_d.md R908). -/
def execFsubD (rd rs1 rs2 : FReg) (rm : BitVec 3) (s : State) : Out :=
  s.withRounding rm (Instr.fsubD rd rs1 rs2 rm).bits fun m =>
    s.setD rd (Fmt.double.sub m (s.valD rs1) (s.valD rs2))

/-- FMUL.D (48_d.md R909). -/
def execFmulD (rd rs1 rs2 : FReg) (rm : BitVec 3) (s : State) : Out :=
  s.withRounding rm (Instr.fmulD rd rs1 rs2 rm).bits fun m =>
    s.setD rd (Fmt.double.mul m (s.valD rs1) (s.valD rs2))

/-- FDIV.D (48_d.md R910). -/
def execFdivD (rd rs1 rs2 : FReg) (rm : BitVec 3) (s : State) : Out :=
  s.withRounding rm (Instr.fdivD rd rs1 rs2 rm).bits fun m =>
    s.setD rd (Fmt.double.div m (s.valD rs1) (s.valD rs2))

/-- FSQRT.D (48_d.md R911). -/
def execFsqrtD (rd rs1 : FReg) (rm : BitVec 3) (s : State) : Out :=
  s.withRounding rm (Instr.fsqrtD rd rs1 rm).bits fun m =>
    s.setD rd (Fmt.double.sqrt m (s.valD rs1))

/-- FSGNJ.D (48_d.md R912). -/
def execFsgnjD (rd rs1 rs2 : FReg) (s : State) : Out :=
  s.setF rd (signInject (n := 63) (s.readF rs2).msb (s.readF rs1)) 4

/-- FSGNJN.D (48_d.md R913). -/
def execFsgnjnD (rd rs1 rs2 : FReg) (s : State) : Out :=
  s.setF rd (signInject (n := 63) (!(s.readF rs2).msb) (s.readF rs1)) 4

/-- FSGNJX.D (48_d.md R914). -/
def execFsgnjxD (rd rs1 rs2 : FReg) (s : State) : Out :=
  s.setF rd (signInject (n := 63) ((s.readF rs1).msb != (s.readF rs2).msb) (s.readF rs1)) 4

/-- FMIN.D (48_d.md R915). -/
def execFminD (rd rs1 rs2 : FReg) (s : State) : Out :=
  s.setD rd (Fmt.double.min (s.readF rs1).toNat (s.readF rs2).toNat)

/-- FMAX.D (48_d.md R916). -/
def execFmaxD (rd rs1 rs2 : FReg) (s : State) : Out :=
  s.setD rd (Fmt.double.max (s.readF rs1).toNat (s.readF rs2).toNat)

/-- FLE.D (48_d.md R921). -/
def execFleD (rd : Reg) (rs1 rs2 : FReg) (s : State) : Out := s.setCmp rd (fle (s.valD rs1) (s.valD rs2))

/-- FLT.D (48_d.md R920). -/
def execFltD (rd : Reg) (rs1 rs2 : FReg) (s : State) : Out := s.setCmp rd (flt (s.valD rs1) (s.valD rs2))

/-- FEQ.D (48_d.md R919). -/
def execFeqD (rd : Reg) (rs1 rs2 : FReg) (s : State) : Out := s.setCmp rd (feq (s.valD rs1) (s.valD rs2))

/-- FCLASS.D (48_d.md R922). -/
def execFclassD (rd : Reg) (rs1 : FReg) (s : State) : Out :=
  s.setX rd (BitVec.ofNat 64 (Fmt.double.classify (s.valD rs1))) 4

/-- FCVT.W.D (48_d.md R923). -/
def execFcvtWD (rd : Reg) (rs1 : FReg) (rm : BitVec 3) (s : State) : Out :=
  s.withRounding rm (Instr.fcvtWD rd rs1 rm).bits fun m =>
    s.setInt32 rd ((s.valD rs1).toInt rangeW m)

/-- FCVT.D.W (48_d.md R925). -/
def execFcvtDW (rd : FReg) (rs1 : Reg) (rm : BitVec 3) (s : State) : Out :=
  s.withRounding rm (Instr.fcvtDW rd rs1 rm).bits fun m =>
    s.setD rd (Fmt.double.ofInt m (s.sintW rs1))

/-- FCVT.WU.D (48_d.md R924). -/
def execFcvtWuD (rd : Reg) (rs1 : FReg) (rm : BitVec 3) (s : State) : Out :=
  s.withRounding rm (Instr.fcvtWuD rd rs1 rm).bits fun m =>
    s.setInt32 rd ((s.valD rs1).toInt rangeWu m)

/-- FCVT.D.WU (48_d.md R926). -/
def execFcvtDWu (rd : FReg) (rs1 : Reg) (rm : BitVec 3) (s : State) : Out :=
  s.withRounding rm (Instr.fcvtDWu rd rs1 rm).bits fun m =>
    s.setD rd (Fmt.double.ofInt m (s.uintW rs1))

/-- FCVT.L.D (48_d.md R927). -/
def execFcvtLD (rd : Reg) (rs1 : FReg) (rm : BitVec 3) (s : State) : Out :=
  s.withRounding rm (Instr.fcvtLD rd rs1 rm).bits fun m =>
    s.setInt64 rd ((s.valD rs1).toInt rangeL m)

/-- FCVT.D.L (48_d.md R930). -/
def execFcvtDL (rd : FReg) (rs1 : Reg) (rm : BitVec 3) (s : State) : Out :=
  s.withRounding rm (Instr.fcvtDL rd rs1 rm).bits fun m =>
    s.setD rd (Fmt.double.ofInt m (s.sintL rs1))

/-- FCVT.LU.D (48_d.md R928). -/
def execFcvtLuD (rd : Reg) (rs1 : FReg) (rm : BitVec 3) (s : State) : Out :=
  s.withRounding rm (Instr.fcvtLuD rd rs1 rm).bits fun m =>
    s.setInt64 rd ((s.valD rs1).toInt rangeLu m)

/-- FCVT.D.LU (48_d.md R931). -/
def execFcvtDLu (rd : FReg) (rs1 : Reg) (rm : BitVec 3) (s : State) : Out :=
  s.withRounding rm (Instr.fcvtDLu rd rs1 rm).bits fun m =>
    s.setD rd (Fmt.double.ofInt m (s.uintL rs1))

/-- FCVT.S.D (48_d.md R917). -/
def execFcvtSD (rd rs1 : FReg) (rm : BitVec 3) (s : State) : Out :=
  s.withRounding rm (Instr.fcvtSD rd rs1 rm).bits fun m =>
    s.setS rd (Fmt.single.roundNum m (s.valD rs1))

/-- FCVT.D.S (48_d.md R918). -/
def execFcvtDS (rd rs1 : FReg) (rm : BitVec 3) (s : State) : Out :=
  s.withRounding rm (Instr.fcvtDS rd rs1 rm).bits fun m =>
    s.setD rd (Fmt.double.roundNum m (s.valS rs1))

/-- FMV.X.D (48_d.md R929). -/
def execFmvXD (rd : Reg) (rs1 : FReg) (s : State) : Out := s.setX rd (s.readF rs1) 4

/-- FMV.D.X (48_d.md R932). -/
def execFmvDX (rd : FReg) (rs1 : Reg) (s : State) : Out := s.setF rd (s.readX rs1) 4

end Sys2Proof.Machine
end

