-- ==== Sys2Proof/Machine/Integer.lean ====
section
/-! DEFINITION. The integer computational instructions (41_integer.md): one register written, then pc and instret advance. -/

namespace Sys2Proof.Machine

/-- `x[rd] <- immU` (41_integer.md R401). -/
def State.upperImm (s : State) (rd : Reg) (imm : BitVec 20) (len : Nat) : Out := s.setX rd (s.cfg.xlen.immU imm) len

/-- Register-immediate: `x[rd] <- op(x[rs1], immI)` at XLEN. -/
def State.opImm (s : State) (op : WidthOp) (rd rs1 : Reg) (imm : BitVec 12) (len : Nat) : Out :=
  s.setX rd (s.cfg.xlen.lift op (s.readX rs1) (s.cfg.xlen.sext imm)) len

/-- Shift by an immediate at XLEN: the amount is the unsigned field (30_encoding.md R275). -/
def State.opShamt (s : State) (op : WidthOp) (rd rs1 : Reg) (shamt : BitVec 6) (len : Nat) : Out :=
  s.setX rd (s.cfg.xlen.lift op (s.readX rs1) (s.cfg.xlen.zext shamt)) len

/-- Register-register: `x[rd] <- op(x[rs1], x[rs2])` at XLEN. -/
def State.opReg (s : State) (op : WidthOp) (rd rs1 rs2 : Reg) (len : Nat) : Out :=
  s.setX rd (s.cfg.xlen.lift op (s.readX rs1) (s.readX rs2)) len

/-- Register-immediate, W form: 32 bits, sign-extended (41_integer.md R400). -/
def State.opImmW (s : State) (op : WidthOp) (rd rs1 : Reg) (imm : BitVec 12) (len : Nat) : Out :=
  s.setX rd (s.cfg.xlen.liftW op (s.readX rs1) (s.cfg.xlen.sext imm)) len

/-- Shift by an immediate, W form. -/
def State.opShamtW (s : State) (op : WidthOp) (rd rs1 : Reg) (shamt : BitVec 5) (len : Nat) : Out :=
  s.setX rd (s.cfg.xlen.liftW op (s.readX rs1) (s.cfg.xlen.zext shamt)) len

/-- Register-register, W form. -/
def State.opRegW (s : State) (op : WidthOp) (rd rs1 rs2 : Reg) (len : Nat) : Out :=
  s.setX rd (s.cfg.xlen.liftW op (s.readX rs1) (s.readX rs2)) len

/-- LUI (41_integer.md R401). -/
def execLui (rd : Reg) (imm : BitVec 20) (s : State) : Out := s.upperImm rd imm 4

/-- AUIPC (41_integer.md R402). -/
def execAuipc (rd : Reg) (imm : BitVec 20) (s : State) : Out := s.setX rd (s.readPc + s.cfg.xlen.immU imm) 4

/-- ADDI (41_integer.md R403). -/
def execAddi (rd rs1 : Reg) (imm : BitVec 12) (s : State) : Out := s.opImm opAdd rd rs1 imm 4

/-- SLTI (41_integer.md R404). -/
def execSlti (rd rs1 : Reg) (imm : BitVec 12) (s : State) : Out := s.opImm opSlt rd rs1 imm 4

/-- SLTIU (41_integer.md R405). -/
def execSltiu (rd rs1 : Reg) (imm : BitVec 12) (s : State) : Out := s.opImm opSltu rd rs1 imm 4

/-- XORI (41_integer.md R406). -/
def execXori (rd rs1 : Reg) (imm : BitVec 12) (s : State) : Out := s.opImm opXor rd rs1 imm 4

/-- ORI (41_integer.md R407). -/
def execOri (rd rs1 : Reg) (imm : BitVec 12) (s : State) : Out := s.opImm opOr rd rs1 imm 4

/-- ANDI (41_integer.md R408). -/
def execAndi (rd rs1 : Reg) (imm : BitVec 12) (s : State) : Out := s.opImm opAnd rd rs1 imm 4

/-- SLLI (41_integer.md R409). -/
def execSlli (rd rs1 : Reg) (shamt : BitVec 6) (s : State) : Out := s.opShamt opSll rd rs1 shamt 4

/-- SRLI (41_integer.md R410). -/
def execSrli (rd rs1 : Reg) (shamt : BitVec 6) (s : State) : Out := s.opShamt opSrl rd rs1 shamt 4

/-- SRAI (41_integer.md R411). -/
def execSrai (rd rs1 : Reg) (shamt : BitVec 6) (s : State) : Out := s.opShamt opSra rd rs1 shamt 4

/-- ADD (41_integer.md R412). -/
def execAdd (rd rs1 rs2 : Reg) (s : State) : Out := s.opReg opAdd rd rs1 rs2 4

/-- SUB (41_integer.md R413). -/
def execSub (rd rs1 rs2 : Reg) (s : State) : Out := s.opReg opSub rd rs1 rs2 4

/-- SLL (41_integer.md R414). -/
def execSll (rd rs1 rs2 : Reg) (s : State) : Out := s.opReg opSll rd rs1 rs2 4

/-- SLT (41_integer.md R415). -/
def execSlt (rd rs1 rs2 : Reg) (s : State) : Out := s.opReg opSlt rd rs1 rs2 4

/-- SLTU (41_integer.md R416). -/
def execSltu (rd rs1 rs2 : Reg) (s : State) : Out := s.opReg opSltu rd rs1 rs2 4

/-- XOR (41_integer.md R417). -/
def execXor (rd rs1 rs2 : Reg) (s : State) : Out := s.opReg opXor rd rs1 rs2 4

/-- SRL (41_integer.md R418). -/
def execSrl (rd rs1 rs2 : Reg) (s : State) : Out := s.opReg opSrl rd rs1 rs2 4

/-- SRA (41_integer.md R419). -/
def execSra (rd rs1 rs2 : Reg) (s : State) : Out := s.opReg opSra rd rs1 rs2 4

/-- OR (41_integer.md R420). -/
def execOr (rd rs1 rs2 : Reg) (s : State) : Out := s.opReg opOr rd rs1 rs2 4

/-- AND (41_integer.md R421). -/
def execAnd (rd rs1 rs2 : Reg) (s : State) : Out := s.opReg opAnd rd rs1 rs2 4

/-- ADDIW (41_integer.md R422). -/
def execAddiw (rd rs1 : Reg) (imm : BitVec 12) (s : State) : Out := s.opImmW opAdd rd rs1 imm 4

/-- SLLIW (41_integer.md R423). -/
def execSlliw (rd rs1 : Reg) (shamt : BitVec 5) (s : State) : Out := s.opShamtW opSll rd rs1 shamt 4

/-- SRLIW (41_integer.md R424). -/
def execSrliw (rd rs1 : Reg) (shamt : BitVec 5) (s : State) : Out := s.opShamtW opSrl rd rs1 shamt 4

/-- SRAIW (41_integer.md R425). -/
def execSraiw (rd rs1 : Reg) (shamt : BitVec 5) (s : State) : Out := s.opShamtW opSra rd rs1 shamt 4

/-- ADDW (41_integer.md R426). -/
def execAddw (rd rs1 rs2 : Reg) (s : State) : Out := s.opRegW opAdd rd rs1 rs2 4

/-- SUBW (41_integer.md R427). -/
def execSubw (rd rs1 rs2 : Reg) (s : State) : Out := s.opRegW opSub rd rs1 rs2 4

/-- SLLW (41_integer.md R428). -/
def execSllw (rd rs1 rs2 : Reg) (s : State) : Out := s.opRegW opSll rd rs1 rs2 4

/-- SRLW (41_integer.md R429). -/
def execSrlw (rd rs1 rs2 : Reg) (s : State) : Out := s.opRegW opSrl rd rs1 rs2 4

/-- SRAW (41_integer.md R430). -/
def execSraw (rd rs1 rs2 : Reg) (s : State) : Out := s.opRegW opSra rd rs1 rs2 4

end Sys2Proof.Machine
end

