-- ==== Sys2Proof/Machine/Csr.lean ====
section
/-! DEFINITION. The control and status registers (10_state.md R70 to R80) and the accesses the Zicsr instructions
make to them (44_system.md R604, R605, R613). -/

namespace Sys2Proof.Machine

/-- The CSRs of the block (10_state.md R70). -/
inductive Csr where
  | fflags
  | frm
  | fcsr
  | cycle
  | time
  | instret
  | cycleh
  | timeh
  | instreth
  deriving DecidableEq, Repr

/-- The CSR a number names, if it exists under the configuration (10_state.md R70, R80; 44_system.md R604). -/
def Csr.ofNum (cfg : Config) (n : CsrNum) : Option Csr :=
  match n.toNat with
  | 0x001 => if cfg.extF then some .fflags else none
  | 0x002 => if cfg.extF then some .frm else none
  | 0x003 => if cfg.extF then some .fcsr else none
  | 0xC00 => some .cycle
  | 0xC01 => some .time
  | 0xC02 => some .instret
  | 0xC80 => if cfg.xlen.is32 then some .cycleh else none
  | 0xC81 => if cfg.xlen.is32 then some .timeh else none
  | 0xC82 => if cfg.xlen.is32 then some .instreth else none
  | _ => none

/-- The counters are read-only (10_state.md R78). -/
def Csr.readOnly : Csr → Bool
  | .fflags => false
  | .frm => false
  | .fcsr => false
  | .cycle => true
  | .time => true
  | .instret => true
  | .cycleh => true
  | .timeh => true
  | .instreth => true

/-- Whether a read draws `TIME` afresh (10_state.md R75, R77). -/
def Csr.drawsTime : Csr → Bool
  | .time => true
  | .timeh => true
  | _ => false

/-- `CSRread(c)`, zero-extended to XLEN (10_state.md R71 to R77; 44_system.md R613). -/
def State.csrRead (s : State) (c : Csr) : Word :=
  match c with
  | .fflags => s.fflags.setWidth 64
  | .frm => s.frm.setWidth 64
  | .fcsr => s.fcsr.setWidth 64
  | .cycle => s.cfg.xlen.narrow s.instret
  | .time => s.cfg.xlen.narrow (Config.timeDraw s.draws)
  | .instret => s.cfg.xlen.narrow s.instret
  | .cycleh => s.instret >>> 32
  | .timeh => Config.timeDraw s.draws >>> 32
  | .instreth => s.instret >>> 32

/-- The state after a read: a draw of `TIME` has been taken; no register is touched (44_system.md R613; log 9). -/
def State.csrDrawn (s : State) (c : Csr) : State :=
  if c.drawsTime then { s with draws := s.draws + 1 } else s

/-- `CSRwrite(c, v)`: only the live bits of the floating-point CSRs are kept; the counters take no write
(10_state.md R71 to R73, R79). -/
def State.csrWrite (s : State) (c : Csr) (v : Word) : State :=
  match c with
  | .fflags => { s with fcsr := s.frm ++ v.extractLsb' 0 5 }
  | .frm => { s with fcsr := v.extractLsb' 0 3 ++ s.fflags }
  | .fcsr => { s with fcsr := v.extractLsb' 0 8 }
  | .cycle => s
  | .time => s
  | .instret => s
  | .cycleh => s
  | .timeh => s
  | .instreth => s

/-- A Zicsr instruction: the existence check, the read-only check when it writes, the read, the write of
`f old` when there is one, then rd (44_system.md R604 to R613). -/
def State.csrOp (s : State) (bits : Word) (num : CsrNum) (rd : Reg) (f : Option (Word → Word)) : Out :=
  match Csr.ofNum s.cfg num with
  | none => .next (s.trap .illegalInstruction bits)
  | some c =>
    match f with
    | none => .next (((s.csrDrawn c).writeX rd (s.csrRead c)).retire 4)
    | some g =>
      if c.readOnly then .next (s.trap .illegalInstruction bits)
      else .next (((s.csrWrite c (g (s.csrRead c))).writeX rd (s.csrRead c)).retire 4)

end Sys2Proof.Machine
end

