-- ==== Sys2Proof/Machine/HostPort.lean ====
section
/-! DEFINITION. The host: host calls made by ECALL and EBREAK (60_exceptions.md R1120, R1121), and what the host may
do to the machine between runs (R1122, R1130, R1135; 70_reset_and_hazards.md R1200 to R1203). -/

namespace Sys2Proof.Machine

/-- Which callback a host call runs (44_system.md R602, R603). -/
inductive HostCall where
  | syscall (n : Word)
  | debug
  deriving DecidableEq, Repr

/-- One use of the embedding interface, by a callback or between runs (60_exceptions.md R1120, R1130). It can reach
neither instret, nor the reservation, nor XLEN, nor the extension parameters. -/
inductive HostAction where
  | setX (r : Reg) (v : Word)
  | setF (r : FReg) (v : BitVec 64)
  | setFcsr (v : BitVec 8)
  | setPc (v : Word)
  | copyToGuest (a : Word) (bytes : List Byte)
  | setPageAttr (page : Nat) (attr : PageAttr)
  | freePage (page : Nat)
  | stop
  | setSyscall (n : Nat) (installed : Bool)
  | setDebug (installed : Bool)
  deriving DecidableEq, Repr

/-- How a callback ends: the uses it made of the interface, in order, and the fatal kind it reports, if any
(60_exceptions.md R1121). -/
structure HostReply where
  actions : List HostAction
  fatal : Option (TrapKind × Word)
  deriving DecidableEq, Repr, Inhabited

/-- The memory without the bytes of a page. -/
def Memory.dropPage (m : Memory) (p : Nat) : Memory :=
  { m with cells := m.cells.filter fun c => pageOf c.1 != p }

/-- `set_page_attr`: a page not there before is mapped with its bytes zero (20_memory.md R173, R195; log entry 17). -/
def Memory.setAttr (m : Memory) (p : Nat) (a : PageAttr) : Memory :=
  let m' := if (m.attr p).isNone then m.dropPage p else m
  { m' with pages := assocInsert m'.pages p a }

/-- `free_pages` of one page: it is no longer mapped and its bytes are gone (log entry 17). -/
def Memory.freePage (m : Memory) (p : Nat) : Memory :=
  let m' := m.dropPage p
  { m' with pages := assocErase m'.pages p }

/-- `copy_to_guest`: byte writes in order, which honour page attributes; nothing is written when one byte is refused
(60_exceptions.md R1120; log entry 17). -/
def State.copyToGuest (s : State) (a : Word) (bytes : List Byte) : State :=
  match s.refusal .write a bytes.length with
  | some _ => s
  | none => { s with mem := s.mem.writeAll ((span s.cfg.xlen a bytes.length).zip bytes) }

/-- `copy_from_guest`: the bytes, unless one is refused; the state is not changed (60_exceptions.md R1120). -/
def State.copyFromGuest (s : State) (a : Word) (n : Nat) : Option (List Byte) :=
  match s.refusal .read a n with
  | some _ => none
  | none => some ((span s.cfg.xlen a n).map s.mem.byte)

/-- The handler table with a number installed or removed; the table has NSYSCALLS places (10_state.md R90;
00_scope.md R19). -/
def State.setHandler (s : State) (n : Nat) (installed : Bool) : State :=
  if s.cfg.nsyscalls ≤ n then s
  else
    let rest := s.syscalls.filter fun m => m != n
    { s with
      syscalls := if installed then (rest.filter fun m => decide (m < n)) ++ n :: rest.filter fun m => decide (n < m)
        else rest }

/-- The effect of one use of the interface. -/
def HostAction.apply (s : State) (a : HostAction) : State :=
  match a with
  | .setX r v => s.writeX r v
  | .setF r v => s.writeF r v
  | .setFcsr v => { s with fcsr := v }
  | .setPc v => { s with pc := s.cfg.xlen.narrow v }
  | .copyToGuest a bytes => s.copyToGuest a bytes
  | .setPageAttr p attr => { s with mem := s.mem.setAttr p attr }
  | .freePage p => { s with mem := s.mem.freePage p }
  | .stop => { s with stopped := true }
  | .setSyscall n installed => s.setHandler n installed
  | .setDebug installed => { s with debugHandler := installed }

/-- The state after a list of uses. -/
def State.hostActs (s : State) (acts : List HostAction) : State := acts.foldl HostAction.apply s

end Sys2Proof.Machine

namespace Sys2Proof

/-- FREE VALUE. The host's callbacks, an oracle (60_exceptions.md R1120): given which callback runs, how many free
values were drawn before, and the state, what it does and how it ends (log entry 8). -/
opaque Config.hostReply : Machine.HostCall → Nat → Machine.State → Machine.HostReply

end Sys2Proof

namespace Sys2Proof.Machine

/-- `HostCall(h)` and its end (60_exceptions.md R1120, R1121): the callback acts on the state with pc at the
instruction; after a normal return pc and instret advance, from the pc it left; a fatal kind it reports is the
instruction's trap, with its writes kept. -/
def State.hostCall (s : State) (call : HostCall) (len : Nat) : Out :=
  let reply := Config.hostReply call s.draws s
  let left := { s with draws := s.draws + 1 }.hostActs reply.actions
  match reply.fatal with
  | none => .next (left.retire len)
  | some k => .next (left.trap k.1 (s.cfg.xlen.narrow k.2))

/-! ### Between runs -/

/-- `reset()`: the block's state of 10_state.md R95 is re-initialised, and nothing else is block state
(70_reset_and_hazards.md R1200, R1203). DESIGN CHOICE: the spec makes no claim about the memory, the page
attributes, the handlers and the configuration after `reset()` and leaves them to the host and the memory argument
(R1203, D39); the model keeps them, and the budget and its own count of draws, as they were (log entry 30). A host
that changes them as well does so with the other operations of this file. -/
def State.resetBlock (s : State) : State :=
  { s with
    x := Vector.replicate 32 0
    f := Vector.replicate 32 0
    pc := 0
    fcsr := 0
    instret := 0
    stopped := false
    reservation := none
    run := .idle }

/-- `fork()`: parent and child. The child is a copy of the parent, and from then on the two are independent
(70_reset_and_hazards.md R1202). DESIGN CHOICE: which free values the child draws is left open by the spec, which lists
no such state and lets no two reads of `time` be assumed to agree (R75); the child's draws start at the free place
`Config.forkDraws`, and the fork itself counts as a draw of the parent's (log entry 22). -/
def State.fork (s : State) : State × State :=
  ({ s with draws := s.draws + 1 }, { s with draws := Config.forkDraws s.draws })

/-- The external stop, at any time: the stop flag is set and nothing else (60_exceptions.md R1135). -/
def State.requestStop (s : State) : State := { s with stopped := true }

/-- The arguments of a `vmcall` in a0, a1, ... (60_exceptions.md R1122). -/
def State.setArgs (s : State) (r : Nat) (args : List Word) : State :=
  match args with
  | [] => s
  | v :: rest => (s.writeX (BitVec.ofNat 5 r) v).setArgs (r + 1) rest

/-- The start of `vmcall`: at most eight arguments, the sentinel in ra, the address in pc, then `simulate`
(60_exceptions.md R1122). -/
def State.vmcall (s : State) (address sentinel : Word) (args : List Word) (budget : BitVec 64) : State :=
  let called := (s.setArgs 10 (args.take 8)).writeX 1#5 sentinel
  { called with pc := s.cfg.xlen.narrow address }.simulate budget

/-- What `vmcall` returns: a0 when the run stopped, else the result of the run (60_exceptions.md R1122). -/
inductive VmcallResult where
  | value (a0 : Word)
  | result (r : Result)
  deriving DecidableEq, Repr

/-- The result of `vmcall` when `simulate` has returned (60_exceptions.md R1122). -/
def State.vmcallResult (s : State) : Option VmcallResult :=
  match s.run with
  | .idle => none
  | .running => none
  | .returned .stopped => some (.value (s.readX 10#5))
  | .returned r => some (.result r)

/-- The code of a result (60_exceptions.md R1100). -/
def Result.code : Result → Nat
  | .trap .illegalInstruction _ => 0
  | .trap .unimplementedInstruction _ => 1
  | .trap .executionFault _ => 2
  | .trap .readFault _ => 3
  | .trap .writeFault _ => 4
  | .trap .outOfBoundsFault _ => 5
  | .trap .misalignedFault _ => 6
  | .trap .unhandledSyscall _ => 7
  | .instructionLimit => 8
  | .stopped => 9

/-- Fatal results are codes 0 to 7 (60_exceptions.md R1101). -/
def Result.fatal (r : Result) : Bool := decide (r.code ≤ 7)

end Sys2Proof.Machine
end

