-- ==== Sys2Proof/Machine/System.lean ====
section
/-! DEFINITION. FENCE, FENCE.I, ECALL, EBREAK and the Zicsr instructions (44_system.md). -/

namespace Sys2Proof.Machine

/-- ECALL's number: `u(x[17])` (44_system.md R602). -/
def State.syscallNumber (s : State) : Word := s.readX 17#5

/-- Whether `syscall[n]` is installed; no number at or beyond NSYSCALLS is (44_system.md R602; 00_scope.md R19). -/
def State.syscallInstalled (s : State) (n : Nat) : Bool :=
  decide (n < s.cfg.nsyscalls) && s.syscalls.contains n

/-- ECALL: the handler test, then the host call (44_system.md R602). -/
def State.ecall (s : State) (len : Nat) : Out :=
  if s.syscallInstalled s.syscallNumber.toNat then s.hostCall (.syscall s.syscallNumber) len
  else .next (s.trap .unhandledSyscall s.syscallNumber)

/-- EBREAK: the handler test, then the host call (44_system.md R603). -/
def State.ebreak (s : State) (bits : Word) (len : Nat) : Out :=
  if s.debugHandler then s.hostCall .debug len else .next (s.trap .unhandledSyscall bits)

/-- The write a set or a clear makes: none when the field is zero (44_system.md R605, R607, R608, R610, R611). -/
def writeUnless (zero : Bool) (f : Word → Word) : Option (Word → Word) := if zero then none else some f

/-- FENCE: a no-op, whatever its fields hold (44_system.md R600). -/
def execFence (_fm _pred _succ : BitVec 4) (_rs1 _rd : Reg) (s : State) : Out := .next (s.retire 4)

/-- FENCE.I: a no-op, whatever its fields hold (44_system.md R601). -/
def execFenceI (_imm : BitVec 12) (_rs1 _rd : Reg) (s : State) : Out := .next (s.retire 4)

/-- ECALL (44_system.md R602). -/
def execEcall (s : State) : Out := s.ecall 4

/-- EBREAK (44_system.md R603). -/
def execEbreak (s : State) : Out := s.ebreak Instr.ebreak.bits 4

/-- CSRRW (44_system.md R606). -/
def execCsrrw (rd rs1 : Reg) (csr : BitVec 12) (s : State) : Out :=
  s.csrOp (Instr.csrrw rd rs1 csr).bits csr rd (some fun _ => s.readX rs1)

/-- CSRRS (44_system.md R607). -/
def execCsrrs (rd rs1 : Reg) (csr : BitVec 12) (s : State) : Out :=
  s.csrOp (Instr.csrrs rd rs1 csr).bits csr rd (writeUnless (rs1 == 0#5) fun old => old ||| s.readX rs1)

/-- CSRRC (44_system.md R608). -/
def execCsrrc (rd rs1 : Reg) (csr : BitVec 12) (s : State) : Out :=
  s.csrOp (Instr.csrrc rd rs1 csr).bits csr rd (writeUnless (rs1 == 0#5) fun old => old &&& ~~~s.readX rs1)

/-- CSRRWI (44_system.md R609). -/
def execCsrrwi (rd : Reg) (uimm : BitVec 5) (csr : BitVec 12) (s : State) : Out :=
  s.csrOp (Instr.csrrwi rd uimm csr).bits csr rd (some fun _ => uimm.setWidth 64)

/-- CSRRSI (44_system.md R610). -/
def execCsrrsi (rd : Reg) (uimm : BitVec 5) (csr : BitVec 12) (s : State) : Out :=
  s.csrOp (Instr.csrrsi rd uimm csr).bits csr rd (writeUnless (uimm == 0#5) fun old => old ||| uimm.setWidth 64)

/-- CSRRCI (44_system.md R611). -/
def execCsrrci (rd : Reg) (uimm : BitVec 5) (csr : BitVec 12) (s : State) : Out :=
  s.csrOp (Instr.csrrci rd uimm csr).bits csr rd (writeUnless (uimm == 0#5) fun old => old &&& ~~~uimm.setWidth 64)

end Sys2Proof.Machine
end

