-- ==== Sys2Proof/Machine/Compressed.lean ====
section
/-! DEFINITION. The compressed instructions (49_c.md): each is its 32-bit expansion executed with len = 2 (40_cycle.md R370;
49_c.md R1000), over the same shared operations. -/

namespace Sys2Proof.Machine

/-- C.ADDI4SPN (49_c.md R1003). -/
def execCAddi4spn (rdc : CReg) (nzuimm : BitVec 8) (s : State) : Out :=
  s.opImm opAdd rdc.full 2#5 ((nzuimm ++ 0#2).setWidth 12) 2

/-- C.FLD (49_c.md R1004). -/
def execCFld (rdc rs1c : CReg) (uimm : BitVec 5) (s : State) : Out :=
  s.loadF 8 zextLoaded rdc.full rs1c.full ((uimm ++ 0#3).setWidth 12) 2

/-- C.LW (49_c.md R1005). -/
def execCLw (rdc rs1c : CReg) (uimm : BitVec 5) (s : State) : Out :=
  s.load 4 s.sext32 rdc.full rs1c.full ((uimm ++ 0#2).setWidth 12) 2

/-- C.FLW (49_c.md R1006). -/
def execCFlw (rdc rs1c : CReg) (uimm : BitVec 5) (s : State) : Out :=
  s.loadF 4 boxLoaded rdc.full rs1c.full ((uimm ++ 0#2).setWidth 12) 2

/-- C.LD (49_c.md R1007). -/
def execCLd (rdc rs1c : CReg) (uimm : BitVec 5) (s : State) : Out :=
  s.load 8 zextLoaded rdc.full rs1c.full ((uimm ++ 0#3).setWidth 12) 2

/-- C.FSD (49_c.md R1008). -/
def execCFsd (rs1c rs2c : CReg) (uimm : BitVec 5) (s : State) : Out :=
  s.storeF 8 rs1c.full rs2c.full ((uimm ++ 0#3).setWidth 12) 2

/-- C.SW (49_c.md R1009). -/
def execCSw (rs1c rs2c : CReg) (uimm : BitVec 5) (s : State) : Out :=
  s.store 4 rs1c.full rs2c.full ((uimm ++ 0#2).setWidth 12) 2

/-- C.FSW (49_c.md R1010). -/
def execCFsw (rs1c rs2c : CReg) (uimm : BitVec 5) (s : State) : Out :=
  s.storeF 4 rs1c.full rs2c.full ((uimm ++ 0#2).setWidth 12) 2

/-- C.SD (49_c.md R1011). -/
def execCSd (rs1c rs2c : CReg) (uimm : BitVec 5) (s : State) : Out :=
  s.store 8 rs1c.full rs2c.full ((uimm ++ 0#3).setWidth 12) 2

/-- C.NOP (49_c.md R1012). -/
def execCNop (imm : BitVec 6) (s : State) : Out := s.opImm opAdd 0#5 0#5 (imm.signExtend 12) 2

/-- C.ADDI (49_c.md R1013). -/
def execCAddi (rd : Reg) (imm : BitVec 6) (s : State) : Out := s.opImm opAdd rd rd (imm.signExtend 12) 2

/-- C.JAL (49_c.md R1014). -/
def execCJal (off : BitVec 11) (s : State) : Out := s.jal 1#5 (off.signExtend 20) 2

/-- C.ADDIW (49_c.md R1015). -/
def execCAddiw (rd : Reg) (imm : BitVec 6) (s : State) : Out := s.opImmW opAdd rd rd (imm.signExtend 12) 2

/-- C.LI (49_c.md R1016). -/
def execCLi (rd : Reg) (imm : BitVec 6) (s : State) : Out := s.opImm opAdd rd 0#5 (imm.signExtend 12) 2

/-- C.ADDI16SP (49_c.md R1017). -/
def execCAddi16sp (nzimm : BitVec 6) (s : State) : Out :=
  s.opImm opAdd 2#5 2#5 ((nzimm ++ 0#4).signExtend 12) 2

/-- C.LUI (49_c.md R1018). -/
def execCLui (rd : Reg) (nzimm : BitVec 6) (s : State) : Out := s.upperImm rd (nzimm.signExtend 20) 2

/-- C.SRLI (49_c.md R1019). -/
def execCSrli (rdc : CReg) (shamt : BitVec 6) (s : State) : Out := s.opShamt opSrl rdc.full rdc.full shamt 2

/-- C.SRAI (49_c.md R1020). -/
def execCSrai (rdc : CReg) (shamt : BitVec 6) (s : State) : Out := s.opShamt opSra rdc.full rdc.full shamt 2

/-- C.ANDI (49_c.md R1021). -/
def execCAndi (rdc : CReg) (imm : BitVec 6) (s : State) : Out :=
  s.opImm opAnd rdc.full rdc.full (imm.signExtend 12) 2

/-- C.SUB (49_c.md R1022). -/
def execCSub (rdc rs2c : CReg) (s : State) : Out := s.opReg opSub rdc.full rdc.full rs2c.full 2

/-- C.XOR (49_c.md R1023). -/
def execCXor (rdc rs2c : CReg) (s : State) : Out := s.opReg opXor rdc.full rdc.full rs2c.full 2

/-- C.OR (49_c.md R1024). -/
def execCOr (rdc rs2c : CReg) (s : State) : Out := s.opReg opOr rdc.full rdc.full rs2c.full 2

/-- C.AND (49_c.md R1025). -/
def execCAnd (rdc rs2c : CReg) (s : State) : Out := s.opReg opAnd rdc.full rdc.full rs2c.full 2

/-- C.SUBW (49_c.md R1026). -/
def execCSubw (rdc rs2c : CReg) (s : State) : Out := s.opRegW opSub rdc.full rdc.full rs2c.full 2

/-- C.ADDW (49_c.md R1027). -/
def execCAddw (rdc rs2c : CReg) (s : State) : Out := s.opRegW opAdd rdc.full rdc.full rs2c.full 2

/-- C.J (49_c.md R1028). -/
def execCJ (off : BitVec 11) (s : State) : Out := s.jal 0#5 (off.signExtend 20) 2

/-- C.BEQZ (49_c.md R1029). -/
def execCBeqz (rs1c : CReg) (off : BitVec 8) (s : State) : Out :=
  s.branch (s.readX rs1c.full == s.readX 0#5) (off.signExtend 12) 2

/-- C.BNEZ (49_c.md R1030). -/
def execCBnez (rs1c : CReg) (off : BitVec 8) (s : State) : Out :=
  s.branch (s.readX rs1c.full != s.readX 0#5) (off.signExtend 12) 2

/-- C.SLLI (49_c.md R1031). -/
def execCSlli (rd : Reg) (shamt : BitVec 6) (s : State) : Out := s.opShamt opSll rd rd shamt 2

/-- C.FLDSP (49_c.md R1032). -/
def execCFldsp (rd : FReg) (uimm : BitVec 6) (s : State) : Out :=
  s.loadF 8 zextLoaded rd 2#5 ((uimm ++ 0#3).setWidth 12) 2

/-- C.LWSP (49_c.md R1033). -/
def execCLwsp (rd : Reg) (uimm : BitVec 6) (s : State) : Out :=
  s.load 4 s.sext32 rd 2#5 ((uimm ++ 0#2).setWidth 12) 2

/-- C.FLWSP (49_c.md R1034). -/
def execCFlwsp (rd : FReg) (uimm : BitVec 6) (s : State) : Out :=
  s.loadF 4 boxLoaded rd 2#5 ((uimm ++ 0#2).setWidth 12) 2

/-- C.LDSP (49_c.md R1035). -/
def execCLdsp (rd : Reg) (uimm : BitVec 6) (s : State) : Out :=
  s.load 8 zextLoaded rd 2#5 ((uimm ++ 0#3).setWidth 12) 2

/-- C.JR (49_c.md R1036). -/
def execCJr (rs1 : Reg) (s : State) : Out := s.jalr 0#5 rs1 0#12 2

/-- C.MV (49_c.md R1037). -/
def execCMv (rd rs2 : Reg) (s : State) : Out := s.opReg opAdd rd 0#5 rs2 2

/-- C.EBREAK (49_c.md R1038). -/
def execCEbreak (s : State) : Out := s.ebreak Instr.cEbreak.bits 2

/-- C.JALR (49_c.md R1039). -/
def execCJalr (rs1 : Reg) (s : State) : Out := s.jalr 1#5 rs1 0#12 2

/-- C.ADD (49_c.md R1040). -/
def execCAdd (rd rs2 : Reg) (s : State) : Out := s.opReg opAdd rd rd rs2 2

/-- C.FSDSP (49_c.md R1041). -/
def execCFsdsp (rs2 : FReg) (uimm : BitVec 6) (s : State) : Out :=
  s.storeF 8 2#5 rs2 ((uimm ++ 0#3).setWidth 12) 2

/-- C.SWSP (49_c.md R1042). -/
def execCSwsp (rs2 : Reg) (uimm : BitVec 6) (s : State) : Out :=
  s.store 4 2#5 rs2 ((uimm ++ 0#2).setWidth 12) 2

/-- C.FSWSP (49_c.md R1043). -/
def execCFswsp (rs2 : FReg) (uimm : BitVec 6) (s : State) : Out :=
  s.storeF 4 2#5 rs2 ((uimm ++ 0#2).setWidth 12) 2

/-- C.SDSP (49_c.md R1044). -/
def execCSdsp (rs2 : Reg) (uimm : BitVec 6) (s : State) : Out :=
  s.store 8 2#5 rs2 ((uimm ++ 0#3).setWidth 12) 2

end Sys2Proof.Machine
end

