-- ==== Sys2Proof/Machine/Mul.lean ====
section
/-! DEFINITION. Multiply and divide (45_m.md): nothing traps, division by zero and overflow have stated results. -/

namespace Sys2Proof.Machine

/-- MUL (45_m.md R681). -/
def execMul (rd rs1 rs2 : Reg) (s : State) : Out := s.opReg opMul rd rs1 rs2 4

/-- MULH (45_m.md R682). -/
def execMulh (rd rs1 rs2 : Reg) (s : State) : Out := s.opReg opMulh rd rs1 rs2 4

/-- MULHSU (45_m.md R683). -/
def execMulhsu (rd rs1 rs2 : Reg) (s : State) : Out := s.opReg opMulhsu rd rs1 rs2 4

/-- MULHU (45_m.md R684). -/
def execMulhu (rd rs1 rs2 : Reg) (s : State) : Out := s.opReg opMulhu rd rs1 rs2 4

/-- DIV (45_m.md R685). -/
def execDiv (rd rs1 rs2 : Reg) (s : State) : Out := s.opReg opDiv rd rs1 rs2 4

/-- DIVU (45_m.md R686). -/
def execDivu (rd rs1 rs2 : Reg) (s : State) : Out := s.opReg opDivu rd rs1 rs2 4

/-- REM (45_m.md R687). -/
def execRem (rd rs1 rs2 : Reg) (s : State) : Out := s.opReg opRem rd rs1 rs2 4

/-- REMU (45_m.md R688). -/
def execRemu (rd rs1 rs2 : Reg) (s : State) : Out := s.opReg opRemu rd rs1 rs2 4

/-- MULW (45_m.md R689). -/
def execMulw (rd rs1 rs2 : Reg) (s : State) : Out := s.opRegW opMul rd rs1 rs2 4

/-- DIVW (45_m.md R690). -/
def execDivw (rd rs1 rs2 : Reg) (s : State) : Out := s.opRegW opDiv rd rs1 rs2 4

/-- DIVUW (45_m.md R691). -/
def execDivuw (rd rs1 rs2 : Reg) (s : State) : Out := s.opRegW opDivu rd rs1 rs2 4

/-- REMW (45_m.md R692). -/
def execRemw (rd rs1 rs2 : Reg) (s : State) : Out := s.opRegW opRem rd rs1 rs2 4

/-- REMUW (45_m.md R693). -/
def execRemuw (rd rs1 rs2 : Reg) (s : State) : Out := s.opRegW opRemu rd rs1 rs2 4

end Sys2Proof.Machine
end

