-- ==== Sys2Proof/Machine/Fetch.lean ====
section
/-! DEFINITION. The front of one iteration of the `simulate` loop: the boundary tests, the pc check, fetch and decode
(40_cycle.md R351 to R360, R364, R365). What they let through executes. -/

namespace Sys2Proof.Machine

/-- IALIGN / 8, the alignment of instruction addresses in bytes (00_scope.md R17; 10_state.md R62). -/
def instrAlign (cfg : Config) : Nat := if cfg.extC then 2 else 4

/-- What a fetch answers (40_cycle.md R352). -/
inductive Fetched where
  | ok (p : Parcel)
  | fault (kind : TrapKind) (addr : Word)
  deriving DecidableEq, Repr

/-- `Fetch16(a)`, then `k` on the halfword; a refusal records the halfword's address (20_memory.md R151). -/
def State.withFetch16 (s : State) (a : Word) (k : BitVec 16 → Fetched) : Fetched :=
  match s.refusal .fetch a 2 with
  | some kind => .fault kind a
  | none => k ((s.loadValue a 2).setWidth 16)

/-- `FetchInsn(pc)`: a second halfword only when the first starts a 32-bit instruction (40_cycle.md R352, R353). -/
def State.fetch (s : State) : Fetched :=
  s.withFetch16 s.readPc fun h0 =>
    if isWordStart h0 then
      s.withFetch16 (s.cfg.xlen.narrow (s.readPc + 2)) fun h1 => .ok (.word (joinHalves h1 h0))
    else .ok (.half h0)

/-- The front of an iteration: the state it ends in, or the instruction that executes. -/
inductive Front where
  | done (t : State)
  | execute (i : Instr)
  deriving DecidableEq, Repr

/-- Decode of the fetched parcel under the state's configuration (40_cycle.md R355, R356). A parcel is a whole
instruction, so decode never finds it truncated. -/
def State.decodeFront (s : State) (p : Parcel) : Front :=
  match decode s.cfg p with
  | .ok i => .execute i
  | .illegal => .done (s.trap .illegalInstruction p.bits)
  | .unimplemented => .done (s.trap .unimplementedInstruction p.bits)
  | .truncated => .done (s.trap .illegalInstruction p.bits)

/-- `Step` up to execution: pc alignment, first halfword, second halfword, decode (40_cycle.md R357). -/
def State.stepFront (s : State) : Front :=
  if s.readPc.toNat % instrAlign s.cfg = 0 then
    match s.fetch with
    | .fault kind a => .done (s.trap kind a)
    | .ok p => s.decodeFront p
  else .done (s.trap .misalignedFault s.readPc)

/-- One iteration of the loop up to execution: the stop flag first, then the budget (40_cycle.md R360, R364, R365).
Outside `simulate` nothing happens (60_exceptions.md R1146; log entry 6). -/
def State.front (s : State) : Front :=
  match s.run with
  | .idle => .done s
  | .returned _ => .done s
  | .running =>
    if s.stopped then .done { s with run := .returned .stopped }
    else if s.budget.toNat ≤ s.instret.toNat then .done { s with run := .returned .instructionLimit }
    else s.stepFront

/-! ### The host's question about one row of the table -/

/-- The register width under which the bytes have a row: the one the machine has where it does, else the other
(log entry 16). -/
def placedXlen (cfg : Config) (bs : List Byte) : Xlen :=
  match decodeBytes cfg bs with
  | .ok _ => cfg.xlen
  | _ =>
    match decodeBytes { cfg with xlen := .rv32 } bs with
    | .ok _ => .rv32
    | _ =>
      match decodeBytes { cfg with xlen := .rv64 } bs with
      | .ok _ => .rv64
      | _ => cfg.xlen

/-- The memory with a byte's page executable and the byte below the cap. -/
def Memory.allowFetch (m : Memory) (b : Nat) : Memory :=
  let a := (m.attr (pageOf b)).getD { readable := false, writable := false, executable := false }
  { m with cap := max m.cap (b + 1), pages := assocInsert m.pages (pageOf b) { a with executable := true } }

/-- The memory with bytes placed where a fetch at `a` reads them. -/
def Memory.placeCode (m : Memory) (xl : Xlen) (a : Word) (bs : List Byte) : Memory :=
  let cells := (span xl a bs.length).zip bs
  (cells.foldl (fun m c => m.allowFetch c.1) m).writeAll cells

/-- The instruction of a table word stored where the next step fetches, and the loop made to run it (log entries 15
and 16): a `simulate` begun, an aligned pc, an executable page and, where the word has a row at the other register
width only, that width. -/
def State.placeWord (s : State) (nbits w : Nat) : State :=
  let bs := tableBytes nbits w
  let xl := placedXlen s.cfg bs
  let cfg := { s.cfg with xlen := xl }
  let pc := xl.narrow (s.pc - BitVec.ofNat 64 (s.pc.toNat % instrAlign cfg))
  { s with cfg := cfg, pc := pc, mem := s.mem.placeCode xl pc bs }.simulate (BitVec.allOnes 64)

end Sys2Proof.Machine
end

