-- ==== Sys2Proof/Machine/Step.lean ====
section
/-! DEFINITION. One step: one iteration of the `simulate` loop (40_cycle.md R360; log entry 6). -/

namespace Sys2Proof.Machine

/-- The boundary tests, fetch and decode of `Machine/Fetch.lean`, then the meaning of the instruction. -/
def step (s : State) : Host.Outcome State Fault Refusal :=
  match s.front with
  | .done t => .next t
  | .execute i => exec i s

/-- The state with a table word stored where the next step fetches (log entries 15 and 16). -/
def State.withFetchWord (s : State) (nbits w : Nat) : State := s.placeWord nbits w

end Sys2Proof.Machine
end

