-- ==== Sys2Proof/Safety.lean ====
section
/-! DEFINITION. The terms claims use: what it is to keep state, to complete, to trap, and the invariant of the machine.
Values are read as integers here, so that a claim about a result is arithmetic and not the model's own expression. -/

namespace Sys2Proof

/-! ### Kinds of instruction -/

/-- The instructions that call the host (60_exceptions.md R1120). -/
def Instr.callsHost (i : Instr) : Bool :=
  match i with
  | .ecall => true
  | .ebreak => true
  | .cEbreak => true
  | _ => false

/-- The Zicsr instructions (44_system.md R606 to R611). -/
def Instr.accessesCsr (i : Instr) : Bool :=
  match i with
  | .csrrw _ _ _ => true
  | .csrrs _ _ _ => true
  | .csrrc _ _ _ => true
  | .csrrwi _ _ _ => true
  | .csrrsi _ _ _ => true
  | .csrrci _ _ _ => true
  | _ => false

/-- LR and SC, the instructions that touch the reservation (46_a.md R731). -/
def Instr.reserves (i : Instr) : Bool :=
  match i with
  | .lrW _ _ _ _ => true
  | .scW _ _ _ _ _ => true
  | .lrD _ _ _ _ => true
  | .scD _ _ _ _ _ => true
  | _ => false

/-- SC (46_a.md R733, R735). -/
def Instr.conditional (i : Instr) : Bool :=
  match i with
  | .scW _ _ _ _ _ => true
  | .scD _ _ _ _ _ => true
  | _ => false

/-- The control transfers, which override the pc (40_cycle.md R362). -/
def Instr.transfers (i : Instr) : Bool :=
  match i with
  | .jal _ _ => true
  | .jalr _ _ _ => true
  | .beq _ _ _ => true
  | .bne _ _ _ => true
  | .blt _ _ _ => true
  | .bge _ _ _ => true
  | .bltu _ _ _ => true
  | .bgeu _ _ _ => true
  | .cJal _ => true
  | .cJ _ => true
  | .cBeqz _ _ => true
  | .cBnez _ _ => true
  | .cJr _ => true
  | .cJalr _ => true
  | _ => false

/-- The rounding-mode field of the instructions that have one (47_f.md R803). -/
def Instr.roundingField (i : Instr) : Option (BitVec 3) :=
  match i with
  | .fmaddS _ _ _ _ rm => some rm
  | .fmsubS _ _ _ _ rm => some rm
  | .fnmsubS _ _ _ _ rm => some rm
  | .fnmaddS _ _ _ _ rm => some rm
  | .faddS _ _ _ rm => some rm
  | .fsubS _ _ _ rm => some rm
  | .fmulS _ _ _ rm => some rm
  | .fdivS _ _ _ rm => some rm
  | .fsqrtS _ _ rm => some rm
  | .fcvtWS _ _ rm => some rm
  | .fcvtSW _ _ rm => some rm
  | .fcvtWuS _ _ rm => some rm
  | .fcvtSWu _ _ rm => some rm
  | .fcvtLS _ _ rm => some rm
  | .fcvtSL _ _ rm => some rm
  | .fcvtLuS _ _ rm => some rm
  | .fcvtSLu _ _ rm => some rm
  | .fmaddD _ _ _ _ rm => some rm
  | .fmsubD _ _ _ _ rm => some rm
  | .fnmsubD _ _ _ _ rm => some rm
  | .fnmaddD _ _ _ _ rm => some rm
  | .faddD _ _ _ rm => some rm
  | .fsubD _ _ _ rm => some rm
  | .fmulD _ _ _ rm => some rm
  | .fdivD _ _ _ rm => some rm
  | .fsqrtD _ _ rm => some rm
  | .fcvtWD _ _ rm => some rm
  | .fcvtDW _ _ rm => some rm
  | .fcvtWuD _ _ rm => some rm
  | .fcvtDWu _ _ rm => some rm
  | .fcvtLD _ _ rm => some rm
  | .fcvtDL _ _ rm => some rm
  | .fcvtLuD _ _ rm => some rm
  | .fcvtDLu _ _ rm => some rm
  | .fcvtSD _ _ rm => some rm
  | .fcvtDS _ _ rm => some rm
  | _ => none

/-- The size and the address register of an LR or an AMO (46_a.md R730). -/
def Instr.atomicRead (i : Instr) : Option (Machine.ResSize × Reg) :=
  match i with
  | .lrW _ rs1 _ _ => some (.word, rs1)
  | .lrD _ rs1 _ _ => some (.double, rs1)
  | .amoswapW _ rs1 _ _ _ => some (.word, rs1)
  | .amoaddW _ rs1 _ _ _ => some (.word, rs1)
  | .amoxorW _ rs1 _ _ _ => some (.word, rs1)
  | .amoandW _ rs1 _ _ _ => some (.word, rs1)
  | .amoorW _ rs1 _ _ _ => some (.word, rs1)
  | .amominW _ rs1 _ _ _ => some (.word, rs1)
  | .amomaxW _ rs1 _ _ _ => some (.word, rs1)
  | .amominuW _ rs1 _ _ _ => some (.word, rs1)
  | .amomaxuW _ rs1 _ _ _ => some (.word, rs1)
  | .amoswapD _ rs1 _ _ _ => some (.double, rs1)
  | .amoaddD _ rs1 _ _ _ => some (.double, rs1)
  | .amoxorD _ rs1 _ _ _ => some (.double, rs1)
  | .amoandD _ rs1 _ _ _ => some (.double, rs1)
  | .amoorD _ rs1 _ _ _ => some (.double, rs1)
  | .amominD _ rs1 _ _ _ => some (.double, rs1)
  | .amomaxD _ rs1 _ _ _ => some (.double, rs1)
  | .amominuD _ rs1 _ _ _ => some (.double, rs1)
  | .amomaxuD _ rs1 _ _ _ => some (.double, rs1)
  | _ => none

/-- The size and the address register of an AMO (46_a.md R736). -/
def Instr.amoAccess (i : Instr) : Option (Machine.ResSize × Reg) :=
  match i with
  | .amoswapW _ rs1 _ _ _ => some (.word, rs1)
  | .amoaddW _ rs1 _ _ _ => some (.word, rs1)
  | .amoxorW _ rs1 _ _ _ => some (.word, rs1)
  | .amoandW _ rs1 _ _ _ => some (.word, rs1)
  | .amoorW _ rs1 _ _ _ => some (.word, rs1)
  | .amominW _ rs1 _ _ _ => some (.word, rs1)
  | .amomaxW _ rs1 _ _ _ => some (.word, rs1)
  | .amominuW _ rs1 _ _ _ => some (.word, rs1)
  | .amomaxuW _ rs1 _ _ _ => some (.word, rs1)
  | .amoswapD _ rs1 _ _ _ => some (.double, rs1)
  | .amoaddD _ rs1 _ _ _ => some (.double, rs1)
  | .amoxorD _ rs1 _ _ _ => some (.double, rs1)
  | .amoandD _ rs1 _ _ _ => some (.double, rs1)
  | .amoorD _ rs1 _ _ _ => some (.double, rs1)
  | .amominD _ rs1 _ _ _ => some (.double, rs1)
  | .amomaxD _ rs1 _ _ _ => some (.double, rs1)
  | .amominuD _ rs1 _ _ _ => some (.double, rs1)
  | .amomaxuD _ rs1 _ _ _ => some (.double, rs1)
  | _ => none

/-- The size and the address register of an SC (46_a.md R733, R735). -/
def Instr.scAccess (i : Instr) : Option (Machine.ResSize × Reg) :=
  match i with
  | .scW _ rs1 _ _ _ => some (.word, rs1)
  | .scD _ rs1 _ _ _ => some (.double, rs1)
  | _ => none

/-- What the ext column of opcode_table.json asks of the configuration for the row a parcel selects, read off the bits
of the parcel (00_scope.md R16; 60_exceptions.md R1103). A halfword: EXT_C, with EXT_D for C.FLD, C.FSD, C.FLDSP and
C.FSDSP, and with EXT_F for C.FLW, C.FSW, C.FLWSP and C.FSWSP, which stand on RV32 only. A word: EXT_M for the opcodes
OP and OP-32 with funct7 1; EXT_A for AMO; EXT_F or EXT_D for LOAD-FP and STORE-FP by the width in funct3, for the four
fused opcodes by the format field, and for OP-FP by the format field too, but that FCVT.S.D (funct7 0100000) needs
EXT_D; nothing for every other row. -/
def Config.Provides (cfg : Config) (p : Parcel) : Prop :=
  match p with
  | .half h =>
    let wide := h.toNat % 4 ≠ 1
    let funct3 := h.toNat / 2 ^ 13
    cfg.extC = true ∧ (wide → funct3 % 4 = 1 → cfg.extD = true) ∧
      (wide → funct3 % 4 = 3 → cfg.xlen = .rv32 → cfg.extF = true)
  | .word w =>
    let opcode := w.toNat % 128
    let funct3 := w.toNat / 2 ^ 12 % 8
    let funct7 := w.toNat / 2 ^ 25
    let fused := opcode = 0x43 ∨ opcode = 0x47 ∨ opcode = 0x4B ∨ opcode = 0x4F
    (opcode = 0x33 ∨ opcode = 0x3B → funct7 = 1 → cfg.extM = true) ∧
      (opcode = 0x2F → cfg.extA = true) ∧
      (opcode = 0x07 ∨ opcode = 0x27 → (funct3 = 2 → cfg.extF = true) ∧ (funct3 = 3 → cfg.extD = true)) ∧
      (fused → (funct7 % 4 = 0 → cfg.extF = true) ∧ (funct7 % 4 = 1 → cfg.extD = true)) ∧
      (opcode = 0x53 → if funct7 % 4 = 1 ∨ funct7 = 0x20 then cfg.extD = true else cfg.extF = true)

end Sys2Proof

namespace Sys2Proof.Machine

/-! ### Readings -/

/-- 2^XLEN. -/
def State.size (s : State) : Nat := 2 ^ s.cfg.xlen.bits

/-- `u(x[r])` as an integer (00_scope.md R23). -/
def State.U (s : State) (r : Reg) : Int := ((s.readX r).toNat : Int)

/-- `s(x[r])` as an integer: the residue modulo 2^XLEN of least magnitude (00_scope.md R23). -/
def State.S (s : State) (r : Reg) : Int := (s.U r).bmod s.size

/-- `u(x[r][31:0])` as an integer. -/
def State.U32 (s : State) (r : Reg) : Int := s.U r % 2 ^ 32

/-- `s32(x[r][31:0])` as an integer (41_integer.md R425). -/
def State.S32 (s : State) (r : Reg) : Int := (s.U r).bmod (2 ^ 32)

/-- `u(x[r])` as a natural number. -/
def State.N (s : State) (r : Reg) : Nat := (s.readX r).toNat

/-- A sign-extended immediate as an XLEN-bit natural number (00_scope.md R24). -/
def State.immN (s : State) {n : Nat} (imm : BitVec n) : Nat := (imm.toInt % s.size).toNat

/-- 1 when the condition holds, else 0. -/
def oneIf (c : Bool) : Int := if c then 1 else 0

/-- `sext_32` of an integer: its low 32 bits read as signed. -/
def sext32Int (v : Int) : Int := v.bmod (2 ^ 32)

/-- The little-endian value of the `n` bytes of memory at `a`, addresses modulo 2^XLEN (20_memory.md R155, R157). -/
def State.bytesAt (s : State) (a n : Nat) : Nat :=
  match n with
  | 0 => 0
  | n' + 1 => s.bytesAt a n' + (s.mem.byte ((a + n') % s.size)).toNat * 256 ^ n'

/-- The effective address of a load or a store with a 12-bit immediate (43_loadstore.md R550), by the function the
meanings use. -/
def State.address (s : State) (rs1 : Reg) (imm : BitVec 12) : Word := s.ea rs1 (s.cfg.xlen.sext imm)

/-- The register a primed field names, 8 + field (49_c.md R1001). -/
def prime (r : CReg) : Reg := BitVec.ofNat 5 (8 + r.toNat)

/-- The address an offset from pc names, modulo 2^XLEN (42_control.md R500). -/
def State.fromPc (s : State) (off : Int) : Nat := (((s.readPc.toNat : Int) + off) % s.size).toNat

/-- The target of JALR: the sum modulo 2^XLEN with bit 0 cleared (42_control.md R502). -/
def State.fromReg (s : State) (rs1 : Reg) (imm : Int) : Nat := ((s.U rs1 + imm) % s.size).toNat / 2 * 2

/-- The effective address of a compressed load or store, whose offset is unsigned (49_c.md R1002), by the function the
meanings use. -/
def State.addressC (s : State) (rs1 : Reg) (off : Nat) : Word := s.ea rs1 (BitVec.ofNat 64 off)

/-- A target a transfer may take (42_control.md R500). -/
def State.Aligned (s : State) (target : Nat) : Prop := s.cfg.extC = true ∨ target % 4 = 0

/-- The memory accepts an access to each of the `n` bytes at `a` (20_memory.md R171 to R174). -/
def State.Accepts (s : State) (acc : Access) (a n : Nat) : Prop :=
  ∀ k, k < n → s.mem.byteRefusal acc ((a + k) % s.size) = none

/-- The lowest refused byte of the `n` bytes at `a` is refused with this kind (20_memory.md R161). -/
def State.Refuses (s : State) (acc : Access) (a n : Nat) (kind : TrapKind) : Prop :=
  ∃ k, k < n ∧ s.Accepts acc a k ∧ s.mem.byteRefusal acc ((a + k) % s.size) = some kind

/-! ### Frames -/

/-- What no instruction but a host call changes: configuration, budget, stop flag, handlers, where the run stands, and
all of the memory argument but its bytes. -/
structure SameMachine (s t : State) : Prop where
  cfg : t.cfg = s.cfg
  stopped : t.stopped = s.stopped
  budget : t.budget = s.budget
  syscalls : t.syscalls = s.syscalls
  debugHandler : t.debugHandler = s.debugHandler
  run : t.run = s.run
  cap : t.mem.cap = s.mem.cap
  unmapped : t.mem.unmapped = s.mem.unmapped
  checkFirst : t.mem.checkFirst = s.mem.checkFirst
  pages : t.mem.pages = s.mem.pages

/-- Every integer register but those named reads as before. -/
def SameXBut (s t : State) (rds : List Reg) : Prop := ∀ r, r ∉ rds → t.readX r = s.readX r

/-- Every floating-point register but those named reads as before. -/
def SameFBut (s t : State) (rds : List FReg) : Prop := ∀ r, r ∉ rds → t.readF r = s.readF r

/-- Every byte of memory reads as before. -/
def SameMem (s t : State) : Prop := ∀ b, t.mem.byte b = s.mem.byte b

/-- The sequential advance: pc by `len` modulo 2^XLEN, instret by one modulo 2^64 (40_cycle.md R361, R363). -/
def Advanced (s t : State) (len : Nat) : Prop :=
  t.readPc.toNat = (s.readPc.toNat + len) % s.size ∧ t.instret.toNat = (s.instret.toNat + 1) % 2 ^ 64

/-- Completion of a transfer: pc is the target, instret advances by one modulo 2^64 (40_cycle.md R362, R363). -/
def WentTo (s t : State) (target : Nat) : Prop :=
  t.readPc.toNat = target ∧ t.instret.toNat = (s.instret.toNat + 1) % 2 ^ 64

/-- Only the integer register `rd` and the pc may differ; a write to x0 changes no register. -/
structure OnlyX (s t : State) (rd : Reg) : Prop where
  machine : SameMachine s t
  regs : SameXBut s t [rd]
  zero : t.readX 0#5 = 0
  fregs : SameFBut s t []
  fcsr : t.fcsr = s.fcsr
  reservation : t.reservation = s.reservation
  memory : SameMem s t

/-- Only the floating-point register `rd`, the exception flags and the pc may differ. -/
structure OnlyF (s t : State) (rd : FReg) : Prop where
  machine : SameMachine s t
  regs : SameXBut s t []
  fregs : SameFBut s t [rd]
  frm : t.frm = s.frm
  reservation : t.reservation = s.reservation
  memory : SameMem s t

/-- Only the bytes of memory and the pc may differ. -/
structure OnlyMem (s t : State) : Prop where
  machine : SameMachine s t
  regs : SameXBut s t []
  fregs : SameFBut s t []
  fcsr : t.fcsr = s.fcsr
  reservation : t.reservation = s.reservation

/-- The `n` bytes at `a` hold the low bytes of `v`, lowest first, and every other byte reads as before
(20_memory.md R155). -/
def Stored (s t : State) (a n v : Nat) : Prop :=
  (∀ k, k < n → t.mem.byte ((a + k) % s.size) = BitVec.ofNat 8 (v / 256 ^ k)) ∧
    ∀ b, (∀ k, k < n → b ≠ (a + k) % s.size) → t.mem.byte b = s.mem.byte b

/-! ### Completion and traps -/

/-- The instruction completes: `x[rd]` is `v` modulo 2^XLEN (nothing is written when rd is x0), nothing else changes,
and pc and instret advance. -/
def YieldsX (i : Instr) (s : State) (rd : Reg) (v : Int) (len : Nat) : Prop :=
  ∃ t, exec i s = .next t ∧ (rd ≠ 0#5 → t.U rd = v % s.size) ∧ OnlyX s t rd ∧ Advanced s t len

/-- The instruction completes: `f[rd]` is `v`, the flags `fl` are accrued, nothing else changes, and pc and instret
advance. -/
def YieldsF (i : Instr) (s : State) (rd : FReg) (v : BitVec 64) (fl : FFlags) (len : Nat) : Prop :=
  ∃ t, exec i s = .next t ∧ t.readF rd = v ∧ t.fflags = s.fflags ||| fl ∧ OnlyF s t rd ∧ Advanced s t len

/-- The instruction completes: `x[rd]` is `v` modulo 2^XLEN, the flags `fl` are accrued, frm and all else is kept, and
pc and instret advance. -/
def YieldsXFlags (i : Instr) (s : State) (rd : Reg) (v : Int) (fl : FFlags) : Prop :=
  ∃ t, exec i s = .next t ∧ (rd ≠ 0#5 → t.U rd = v % s.size) ∧ t.fflags = s.fflags ||| fl ∧ t.frm = s.frm ∧
    SameMachine s t ∧ SameXBut s t [rd] ∧ t.readX 0#5 = 0 ∧ SameFBut s t [] ∧ t.reservation = s.reservation ∧
      SameMem s t ∧ Advanced s t 4

/-- The instruction completes: the `n` bytes at `a` hold the low bytes of `v`, nothing else changes, and pc and instret
advance. -/
def StoresAt (i : Instr) (s : State) (a n v len : Nat) : Prop :=
  ∃ t, exec i s = .next t ∧ Stored s t a n v ∧ OnlyMem s t ∧ Advanced s t len

/-- The instruction traps with nothing changed but what `simulate` has returned (60_exceptions.md R1110, R1111), which
the model holds in the field `run` (log entry 5). -/
def TrapsWith (i : Instr) (s : State) (kind : TrapKind) (value : Word) : Prop :=
  exec i s = .next { s with run := .returned (.trap kind value) }

/-- A load: when the memory accepts the read it completes with `v`; else it traps with the lowest refused byte's kind
and the address `a` (20_memory.md R161). -/
def LoadsX (i : Instr) (s : State) (rd : Reg) (a : Word) (n : Nat) (v : Int) (len : Nat) : Prop :=
  (s.Accepts .read a.toNat n → YieldsX i s rd v len) ∧
    ∀ kind, s.Refuses .read a.toNat n kind → TrapsWith i s kind a

/-- A floating-point load, as `LoadsX`; it touches no flag (47_f.md R815). -/
def LoadsF (i : Instr) (s : State) (rd : FReg) (a : Word) (n : Nat) (v : BitVec 64) (len : Nat) : Prop :=
  (s.Accepts .read a.toNat n → YieldsF i s rd v 0#5 len) ∧
    ∀ kind, s.Refuses .read a.toNat n kind → TrapsWith i s kind a

/-- A store the memory refuses: the trap, with the state kept but for memory bytes. Nothing is written when a byte of
the first page is refused, or when the memory checks every byte before it touches any (20_memory.md R195); else each
byte of the store that lies on the first page is written, or none is (R162). Only the model's own count of free values may differ beside. -/
def StoreTraps (i : Instr) (s : State) (a : Word) (n v : Nat) (kind : TrapKind) : Prop :=
  ∃ t, exec i s = .next t ∧
    t = { s with run := .returned (.trap kind a), mem := t.mem, draws := t.draws } ∧
    t.mem.cap = s.mem.cap ∧ t.mem.unmapped = s.mem.unmapped ∧ t.mem.checkFirst = s.mem.checkFirst ∧
    t.mem.pages = s.mem.pages ∧ (s.mem.checkFirst = true → t.mem = s.mem) ∧
    ((∃ k, k < n ∧ pageOf ((a.toNat + k) % s.size) = pageOf (a.toNat % s.size) ∧
        s.mem.byteRefusal .write ((a.toNat + k) % s.size) ≠ none) → t.mem = s.mem) ∧
    (t.mem = s.mem ∨
      ((∀ k, k < n → pageOf ((a.toNat + k) % s.size) = pageOf (a.toNat % s.size) →
          t.mem.byte ((a.toNat + k) % s.size) = BitVec.ofNat 8 (v / 256 ^ k)) ∧
        ∀ b, (∀ k, k < n → pageOf ((a.toNat + k) % s.size) = pageOf (a.toNat % s.size) →
          b ≠ (a.toNat + k) % s.size) → t.mem.byte b = s.mem.byte b))

/-- A store: when the memory accepts the write it completes; else it traps as `StoreTraps` says. -/
def Stores (i : Instr) (s : State) (a : Word) (n v len : Nat) : Prop :=
  (s.Accepts .write a.toNat n → StoresAt i s a.toNat n v len) ∧
    ∀ kind, s.Refuses .write a.toNat n kind → StoreTraps i s a n v kind

/-- A jump: to an aligned target it completes with the link in `x[rd]`; to any other it traps with the target
(42_control.md R500). -/
def Jumps (i : Instr) (s : State) (rd : Reg) (link : Int) (target : Nat) : Prop :=
  (s.Aligned target →
    ∃ t, exec i s = .next t ∧ (rd ≠ 0#5 → t.U rd = link % s.size) ∧ OnlyX s t rd ∧ WentTo s t target) ∧
    (¬s.Aligned target → TrapsWith i s .misalignedFault (BitVec.ofNat 64 target))

/-- A branch: not taken, it advances and checks nothing; taken, it is a jump that links nothing (42_control.md R500). -/
def Branches (i : Instr) (s : State) (taken : Prop) (target len : Nat) : Prop :=
  (¬taken → ∃ t, exec i s = .next t ∧ OnlyX s t 0#5 ∧ Advanced s t len) ∧
    (taken → Jumps i s 0#5 0 target)

/-- An atomic memory operation completes: `x[rd]` gets the old value, the `n` bytes at `a` the new one, nothing else
changes (46_a.md R736). -/
def YieldsAmo (i : Instr) (s : State) (rd : Reg) (a n : Nat) (old : Int) (new : Nat) : Prop :=
  ∃ t, exec i s = .next t ∧ (rd ≠ 0#5 → t.U rd = old % s.size) ∧ Stored s t a n new ∧ SameMachine s t ∧
    SameXBut s t [rd] ∧ t.readX 0#5 = 0 ∧ SameFBut s t [] ∧ t.fcsr = s.fcsr ∧ t.reservation = s.reservation ∧
      Advanced s t 4

/-- The place of a floating-point CSR in fcsr: its lowest bit and its width (10_state.md R71 to R73). -/
def csrField (num : CsrNum) : Nat × Nat :=
  match num.toNat with
  | 1 => (0, 5)
  | 2 => (5, 3)
  | _ => (0, 8)

/-- The value of a floating-point CSR (10_state.md R71 to R73). -/
def State.csrOld (s : State) (num : CsrNum) : Nat :=
  s.fcsr.toNat / 2 ^ (csrField num).1 % 2 ^ (csrField num).2

/-- fcsr with `v` written to a floating-point CSR: its live bits replaced, the others kept (10_state.md R71 to R73). -/
def State.csrNew (s : State) (num : CsrNum) (v : Nat) : Nat :=
  s.fcsr.toNat - s.csrOld num * 2 ^ (csrField num).1 + v % 2 ^ (csrField num).2 * 2 ^ (csrField num).1

/-- A Zicsr instruction completes on a floating-point CSR: `x[rd]` gets the old value, the CSR the live bits of `v`,
nothing else changes (44_system.md R613). -/
def YieldsCsr (i : Instr) (s : State) (rd : Reg) (num : CsrNum) (v : Nat) : Prop :=
  ∃ t, exec i s = .next t ∧ (rd ≠ 0#5 → t.U rd = s.csrOld num) ∧ t.fcsr.toNat = s.csrNew num v ∧ SameMachine s t ∧
    SameXBut s t [rd] ∧ t.readX 0#5 = 0 ∧ SameFBut s t [] ∧ t.reservation = s.reservation ∧ SameMem s t ∧
      Advanced s t 4

/-! ### Real values and rounding -/

/-- The bits of a format stand for the real `x` (47_f.md R807). -/
def FVal.Real (v : FVal) (x : ℝ) : Prop :=
  match v with
  | .fin neg m e => x = (if neg then -1 else 1) * (m : ℝ) * (2 : ℝ) ^ e
  | .inf _ => False
  | .nan _ => False

/-- The bits of a format stand for the extended real `x`. -/
def FVal.Extended (v : FVal) (x : EReal) : Prop :=
  match v with
  | .fin neg m e => x = (((if neg then -1 else 1) * (m : ℝ) * (2 : ℝ) ^ e : ℝ) : EReal)
  | .inf neg => x = if neg then ⊥ else ⊤
  | .nan _ => False

/-- `n` is the real `y` rounded to an integer by the mode (47_f.md R803, R807). -/
def RoundingMode.Rounds (rm : RoundingMode) (y : ℝ) (n : ℤ) : Prop :=
  match rm with
  | .rne => |y - n| ≤ 1 / 2 ∧ (|y - n| = 1 / 2 → n % 2 = 0)
  | .rtz => n = if 0 ≤ y then ⌊y⌋ else ⌈y⌉
  | .rdn => n = ⌊y⌋
  | .rup => n = ⌈y⌉
  | .rmm => |y - n| ≤ 1 / 2 ∧ (|y - n| = 1 / 2 → |y| < |(n : ℝ)|)

/-- The largest finite value, (2 − 2^(1−p))·2^emax, where emax = 1 − emin (47_f.md R807). -/
def Fmt.IsMaxFinite (t : Fmt) (x : ℝ) : Prop := x = (2 - (2 : ℝ) ^ (1 - (t.p : ℤ))) * (2 : ℝ) ^ (1 - t.emin)

/-- Whether an overflow gives an infinity: RNE and RMM always, RUP for positive and RDN for negative values
(47_f.md R807). -/
def RoundingMode.overflowsToInf (rm : RoundingMode) (neg : Bool) : Bool :=
  match rm with
  | .rne => true
  | .rtz => false
  | .rdn => neg
  | .rup => !neg
  | .rmm => true

/-- The result and the flags are those of rounding the nonzero real `v` once to the format (47_f.md R807): with
2^l ≤ |v| < 2^(l+1) and e = max(l, emin), N is v / 2^(e−p+1) rounded; beyond the largest finite value the result
overflows; else it is N·2^(e−p+1) with the sign of v, NX when inexact, UF when inexact and tiny after rounding. -/
def Fmt.RoundsTo (t : Fmt) (rm : RoundingMode) (v : ℝ) (r : FRes) : Prop :=
  ∃ (l e n k : ℤ) (maxF : ℝ), (2 : ℝ) ^ l ≤ |v| ∧ |v| < (2 : ℝ) ^ (l + 1) ∧ e = Max.max l t.emin ∧ t.IsMaxFinite maxF ∧
    rm.Rounds (v / (2 : ℝ) ^ (e - t.p + 1)) n ∧ rm.Rounds (v / (2 : ℝ) ^ (l - t.p + 1)) k ∧
    (maxF < |(n : ℝ)| * (2 : ℝ) ^ (e - t.p + 1) →
      (∀ neg, (neg = true ↔ v < 0) →
        r.bits = t.withSign neg (if rm.overflowsToInf neg then t.infBits else t.infBits - 1)) ∧
      r.flags = flagOF ||| flagNX) ∧
    (|(n : ℝ)| * (2 : ℝ) ^ (e - t.p + 1) ≤ maxF →
      (t.value r.bits).Real (n * (2 : ℝ) ^ (e - t.p + 1)) ∧ r.bits < 2 ^ (t.signBit + 1) ∧
      (r.bits.testBit t.signBit = true ↔ v < 0) ∧
      (n * (2 : ℝ) ^ (e - t.p + 1) = v → r.flags = 0#5) ∧
      (n * (2 : ℝ) ^ (e - t.p + 1) ≠ v → |(k : ℝ)| * (2 : ℝ) ^ (l - t.p + 1) < (2 : ℝ) ^ t.emin →
        r.flags = flagUF ||| flagNX) ∧
      (n * (2 : ℝ) ^ (e - t.p + 1) ≠ v → (2 : ℝ) ^ t.emin ≤ |(k : ℝ)| * (2 : ℝ) ^ (l - t.p + 1) →
        r.flags = flagNX))

/-- A conversion to integer completes (47_f.md R813): a NaN, an infinity or a rounded value out of range gives the
saturation value and NV; else the rounded value, with NX when it differs from the operand. `wrap` is how the result is
read into the register. -/
def ConvertsToInt (i : Instr) (s : State) (rd : Reg) (a : FVal) (m : RoundingMode) (lo hi : Int) (wrap : Int → Int) :
    Prop :=
  (a.isNaN = true → YieldsXFlags i s rd (wrap hi) flagNV) ∧
    (a = .inf false → YieldsXFlags i s rd (wrap hi) flagNV) ∧
    (a = .inf true → YieldsXFlags i s rd (wrap lo) flagNV) ∧
    ∀ (x : ℝ) (n : ℤ), a.Real x → m.Rounds x n →
      (hi < n → YieldsXFlags i s rd (wrap hi) flagNV) ∧ (n < lo → YieldsXFlags i s rd (wrap lo) flagNV) ∧
      (lo ≤ n → n ≤ hi → x = n → YieldsXFlags i s rd (wrap n) 0#5) ∧
      (lo ≤ n → n ≤ hi → x ≠ n → YieldsXFlags i s rd (wrap n) flagNX)

/-- A comparison completes (47_f.md R811): 0 and `nanFlags` when an operand is a NaN; else 1 or 0 as the relation of
the operands' values holds, with no flag. -/
def Compares (i : Instr) (s : State) (rd : Reg) (a b : FVal) (rel : EReal → EReal → Prop) (nanFlags : FFlags) : Prop :=
  (a.isNaN = true ∨ b.isNaN = true → YieldsXFlags i s rd 0 nanFlags) ∧
    ∀ x y : EReal, a.Extended x → b.Extended y →
      (rel x y → YieldsXFlags i s rd 1 0#5) ∧ (¬rel x y → YieldsXFlags i s rd 0 0#5)

/-! ### The invariant -/

/-- THE INVARIANT: the memory keeps its canonical form and holds no byte beyond 2^XLEN; registers, pc and reservation
are values of XLEN bits; x0 holds zero; the handler table has no number outside it; and a running `simulate` has
retired no more than its budget. -/
structure State.Inv (s : State) : Prop where
  memory : s.mem.wf
  addresses : ∀ c ∈ s.mem.cells, c.1 < s.size
  registers : ∀ k (h : k < 32), s.x[k].toNat < s.size
  zero : s.x[0] = 0#64
  pc : s.pc.toNat < s.size
  reservation : ∀ r, s.reservation = some r → r.addr.toNat < s.size ∧ r.addr.toNat % r.size.bytes = 0
  handlers : ∀ n ∈ s.syscalls, n < s.cfg.nsyscalls
  budget : s.run = .running → s.instret.toNat ≤ s.budget.toNat

end Sys2Proof.Machine
end

