-- ==== Sys2Proof/Certificates/Slice0/Obligations.lean ====
section
/-! DEFINITION. The statements for the provers. Results are stated as arithmetic on what the registers and the memory
hold, in the terms of Safety.lean. -/

open Sys2Proof Sys2Proof.Machine

/-- Decoding the encoding of a well-formed instruction gives it back. For both register widths and every constructor: no
operand bit is dropped, and no two instructions share an encoding. (30_encoding.md R252 to R300; 49_c.md R1001 to
R1045; opcode_table.json.) -/
def Obligations.EncodeThenDecode : Prop :=
  ∀ (xl : Xlen) (i : Instr), i.wellFormed xl = true → decodeRow xl (encode i) = some i

/-- Whatever decodes is the encoding of a well-formed instruction. Every parcel that selects a row is the encoding of
that row, its constraints hold, and its length is the row's: reserved encodings select none. (30_encoding.md R300,
R310; 49_c.md R1045; opcode_table.json.) -/
def Obligations.DecodeThenEncode : Prop :=
  ∀ (xl : Xlen) (p : Parcel) (i : Instr), decodeRow xl p = some i → i.wellFormed xl = true ∧ encode i = p

/-- Words the spec writes out decode to the instructions it names. A sanity statement over one or two words per family:
ADD, BEQ, LW, SW, CSRRW, DIV, AMOADD.W, FSW, FMADD.S, FCVT.D.S, C.LW and C.EBREAK. (41_integer.md R412;
42_control.md R503; 43_loadstore.md R553, R560; 44_system.md R606; 45_m.md R685; 46_a.md R738; 47_f.md R821, R822;
48_d.md R918; 49_c.md R1005, R1038.) -/
def Obligations.SpecWordsDecode : Prop :=
  decodeRow .rv64 (.word 0x006283B3#32) = some (.add 7#5 5#5 6#5) ∧
    decodeRow .rv64 (.word 0x00628663#32) = some (.beq 5#5 6#5 6#12) ∧
    decodeRow .rv64 (.word 0x0002A303#32) = some (.lw 6#5 5#5 0#12) ∧
    decodeRow .rv64 (.word 0x0062A023#32) = some (.sw 5#5 6#5 0#12) ∧
    decodeRow .rv64 (.word 0x003312F3#32) = some (.csrrw 5#5 6#5 3#12) ∧
    decodeRow .rv64 (.word 0x0262C3B3#32) = some (.div 7#5 5#5 6#5) ∧
    decodeRow .rv64 (.word 0x0062A3AF#32) = some (.amoaddW 7#5 5#5 6#5 false false) ∧
    decodeRow .rv64 (.word 0x2020F1C3#32) = some (.fmaddS 3#5 1#5 2#5 4#5 7#3) ∧
    decodeRow .rv64 (.word 0x4200F1D3#32) = some (.fcvtDS 3#5 1#5 7#3) ∧
    decodeRow .rv64 (.word 0x0032A027#32) = some (.fsw 5#5 3#5 0#12) ∧
    decodeRow .rv64 (.half 0x40C0#16) = some (.cLw 0#3 1#3 1#5) ∧
    decodeRow .rv64 (.half 0x9002#16) = some .cEbreak

/-- Decode executes, refuses as illegal, or refuses as unimplemented. A row of an enabled extension executes; a row of a
disabled one, and every halfword when EXT_C is false, is unimplemented; a word without a row is illegal. Which
extension a row belongs to is read off its bits, for every row of the opcode table, with EXT_C and EXT_F or EXT_D
for the compressed floating-point forms. (40_cycle.md R356; 60_exceptions.md R1103; 49_c.md R1000; 30_encoding.md
R300; opcode_table.json.) -/
def Obligations.DecodeOutcomes : Prop :=
  ∀ (cfg : Config),
    (∀ h, cfg.extC = false → decode cfg (.half h) = .unimplemented) ∧
    (∀ h, cfg.extC = true → decodeRow cfg.xlen (.half h) = none → decode cfg (.half h) = .illegal) ∧
    (∀ w, decodeRow cfg.xlen (.word w) = none → decode cfg (.word w) = .illegal) ∧
    (∀ p i, decodeRow cfg.xlen p = some i → i.ext.enabled cfg = true → decode cfg p = .ok i) ∧
    (∀ p i, decodeRow cfg.xlen p = some i → i.ext.enabled cfg = false → decode cfg p = .unimplemented) ∧
    (∀ p i, decodeRow cfg.xlen p = some i → (i.ext.enabled cfg = true ↔ cfg.Provides p))

/-- Every SYSTEM word with funct3 000 or 100 but ECALL and EBREAK is illegal. URET, SRET, MRET, WFI and SFENCE.VMA among
them, whatever the configuration. (44_system.md R612; 30_encoding.md R310.) -/
def Obligations.SystemWordsRefused : Prop :=
  ∀ (cfg : Config) (w : BitVec 32), w.toNat % 128 = 0x73 →
    (w.toNat / 4096 % 8 = 0 ∨ w.toNat / 4096 % 8 = 4) → w ≠ 0x00000073#32 → w ≠ 0x00100073#32 →
    decode cfg (.word w) = .illegal

/-- A step runs the instruction that the bytes at pc decode to. Inside a run that neither stops nor has spent its
budget, with pc aligned and the bytes fetchable, the step is exec of the decoded instruction at the same state: pc
is the address of the instruction and nothing is done around it. (40_cycle.md R355, R356, R360; 10_state.md R60.) -/
def Obligations.StepRunsDecoded : Prop :=
  ∀ (s : State) (i : Instr) (n : Nat), s.run = .running → s.stopped = false → s.instret.toNat < s.budget.toNat →
    s.readPc.toNat % instrAlign s.cfg = 0 →
    decodeBytes s.cfg ((List.range n).map fun k => s.mem.byte ((s.readPc.toNat + k) % s.size)) = .ok i →
    s.Accepts .fetch s.readPc.toNat n → step s = exec i s

/-- At an iteration boundary the stop flag is read first, then the budget; outside simulate nothing happens. A call of
simulate clears the flag and the counter and sets the budget; with a budget of 0 it executes nothing. That a
boundary is a step of its own, and that a step outside simulate keeps the state, is the model's choice (log entry
6). (40_cycle.md R360, R364, R365; 60_exceptions.md R1146.) -/
def Obligations.BoundaryResults : Prop :=
  ∀ (s : State),
    (s.run = .running → s.stopped = true → step s = .next { s with run := .returned .stopped }) ∧
    (s.run = .running → s.stopped = false → s.budget.toNat ≤ s.instret.toNat →
      step s = .next { s with run := .returned .instructionLimit }) ∧
    (s.run = .idle → step s = .next s) ∧
    (∀ r, s.run = .returned r → step s = .next s) ∧
    (∀ max, s.simulate max = { s with stopped := false, instret := 0, budget := max, run := .running }) ∧
    step (s.simulate 0) = .next { s.simulate 0 with run := .returned .instructionLimit }

/-- Fetch reads one halfword, and a second one exactly when bits [1:0] of the first are 11. The value is little-endian,
addresses wrap, and a refusal records the address of the halfword refused. That its kind is that of the lowest
refused byte of the halfword is the model's reading (log entry 14), since R161 is worded for the data port.
(30_encoding.md R250, R251; 40_cycle.md R352, R353; 20_memory.md R155, R157.) -/
def Obligations.FetchReadsTheInstruction : Prop :=
  ∀ (s : State),
    (s.Accepts .fetch s.readPc.toNat 2 → s.bytesAt s.readPc.toNat 2 % 4 ≠ 3 →
      s.fetch = .ok (.half (BitVec.ofNat 16 (s.bytesAt s.readPc.toNat 2)))) ∧
    (s.Accepts .fetch s.readPc.toNat 4 → s.bytesAt s.readPc.toNat 2 % 4 = 3 →
      s.fetch = .ok (.word (BitVec.ofNat 32 (s.bytesAt s.readPc.toNat 4)))) ∧
    (∀ kind, s.Refuses .fetch s.readPc.toNat 2 kind → s.fetch = .fault kind s.readPc) ∧
    (∀ kind, s.Accepts .fetch s.readPc.toNat 2 → s.bytesAt s.readPc.toNat 2 % 4 = 3 →
      s.Refuses .fetch ((s.readPc.toNat + 2) % s.size) 2 kind →
      s.fetch = .fault kind (BitVec.ofNat 64 ((s.readPc.toNat + 2) % s.size)))

/-- A step checks pc alignment, then fetch, then decode, and the first failure is its trap. The trap leaves every other
piece of state as it was; the recorded value is pc, the halfword address or the instruction bits. That a trap is a
next state with the result in the field run is the model's choice (log entry 5). (40_cycle.md R351, R356, R357;
60_exceptions.md R1105, R1110.) -/
def Obligations.StepChecksInOrder : Prop :=
  ∀ (s : State), s.run = .running → s.stopped = false → s.instret.toNat < s.budget.toNat →
    (s.readPc.toNat % instrAlign s.cfg ≠ 0 →
      step s = .next { s with run := .returned (.trap .misalignedFault s.readPc) }) ∧
    (s.readPc.toNat % instrAlign s.cfg = 0 →
      (∀ kind a, s.fetch = .fault kind a → step s = .next { s with run := .returned (.trap kind a) }) ∧
      (∀ p, s.fetch = .ok p → decode s.cfg p = .illegal →
        step s = .next { s with run := .returned (.trap .illegalInstruction p.bits) }) ∧
      (∀ p, s.fetch = .ok p → decode s.cfg p = .unimplemented →
        step s = .next { s with run := .returned (.trap .unimplementedInstruction p.bits) }))

/-- Every step and every instruction answers a next state. No state, no memory and no host reply makes the machine
fault, refuse or hang. It holds for callbacks that end, as the oracle's do (log entries 8 and 23). (40_cycle.md
R373.) -/
def Obligations.StepIsTotal : Prop :=
  (∀ s : State, ∃ t, step s = .next t) ∧ ∀ (i : Instr) (s : State), ∃ t, exec i s = .next t

/-- An instruction that ends in a trap has changed nothing but what the spec admits. For every instruction that makes no
host call. Only SC may touch the reservation, and then only to clear it. Memory differs at most on the page of the
recorded address, and only when the kind is one a refused write has, WriteFault or OutOfBoundsFault: a split store
may leave its first page written, all or nothing by a free choice that is the model's reading, and a memory that
checks every byte before it touches any is left as it was. The draw counter and the field run are the model's own
(log entries 5, 9 and 10). (60_exceptions.md R1110 to R1112; 40_cycle.md R363; 20_memory.md R162, R195.) -/
def Obligations.TrapsArePrecise : Prop :=
  ∀ (i : Instr) (s t : State) (kind : TrapKind) (value : Word), i.callsHost = false → s.run = .running →
    exec i s = .next t → t.run = .returned (.trap kind value) →
    t = { s with run := t.run, mem := t.mem, draws := t.draws, reservation := t.reservation } ∧
      (i.conditional = false → t.reservation = s.reservation) ∧
      (i.conditional = true → t.reservation = s.reservation ∨ t.reservation = none) ∧
      t.mem.cap = s.mem.cap ∧ t.mem.unmapped = s.mem.unmapped ∧ t.mem.checkFirst = s.mem.checkFirst ∧
      t.mem.pages = s.mem.pages ∧ (s.mem.checkFirst = true → t.mem = s.mem) ∧
      (kind ≠ .writeFault → kind ≠ .outOfBoundsFault → t.mem = s.mem) ∧
      ∀ b, t.mem.byte b ≠ s.mem.byte b → pageOf b = pageOf value.toNat

/-- An instruction either retires once or traps with pc and instret as they were. For every instruction that makes no
host call; one that is no control transfer moves pc past its own bytes. The field run is the model's (log entry 5).
(40_cycle.md R361 to R363; 10_state.md R61, R85.) -/
def Obligations.RetireOrTrap : Prop :=
  ∀ (i : Instr) (s t : State), i.callsHost = false → s.run = .running → exec i s = .next t →
    (t.run = .running ∧ t.instret.toNat = (s.instret.toNat + 1) % 2 ^ 64 ∧
      (i.transfers = false → t.readPc.toNat = (s.readPc.toNat + (encode i).len) % s.size)) ∨
    (∃ kind value, t.run = .returned (.trap kind value) ∧ t.pc = s.pc ∧ t.instret = s.instret)

/-- Every step keeps the invariant of the machine. The invariant is State.Inv: the memory's canonical form and
addresses, the widths of registers, pc and reservation, x0, the handler table, and that a running simulate has not
retired more than its budget. Host calls are among the steps. How registers and the handler table are held is the
model's choice (log entries 4 and 20). (10_state.md R51, R52, R60, R87, R90; 20_memory.md R150, R157; 40_cycle.md
R360; 46_a.md R730, R731.) -/
def Obligations.InvariantKept : Prop :=
  ∀ (s t : State), s.Inv → step s = .next t → t.Inv

/-- The reset state meets the invariant. It rests on the reset configuration and memory the model chooses (log entries 2
and 3). (10_state.md R95; 70_reset_and_hazards.md R1200.) -/
def Obligations.InvariantAtReset : Prop :=
  State.reset.Inv

/-- No step changes the configuration or the budget, and a callback cannot reach instret, the reservation or the run.
Host callbacks cannot reach XLEN or the extension parameters. Whatever it does through the interface, x0 still reads
as zero. Where the budget and the run are held is the model's choice (log entries 3 and 5). (00_scope.md R14, R16,
R19; 60_exceptions.md R1120, R1130; 10_state.md R57, R87.) -/
def Obligations.HostReach : Prop :=
  (∀ (s t : State), step s = .next t →
     t.cfg = s.cfg ∧ t.budget = s.budget ∧ (∀ r, s.run = .returned r → t.run = .returned r) ∧ (t.run = .idle ↔ s.run = .idle)) ∧
  (∀ (s : State) (acts : List HostAction),
     (s.hostActs acts).instret = s.instret ∧ (s.hostActs acts).reservation = s.reservation ∧
       (s.hostActs acts).cfg = s.cfg ∧ (s.hostActs acts).budget = s.budget ∧ (s.hostActs acts).run = s.run ∧
       (s.hostActs acts).readX 0#5 = 0#64)

/-- Only a CSR write clears an exception flag or changes frm. For every instruction but the Zicsr ones and the host
calls, whose callback may write fcsr. (47_f.md R804; 10_state.md R71.) -/
def Obligations.FlagsOnlyAccrue : Prop :=
  ∀ (i : Instr) (s t : State), i.callsHost = false → i.accessesCsr = false → exec i s = .next t →
    t.frm = s.frm ∧ s.fflags &&& ~~~t.fflags = 0#5

/-- Only LR and SC change the reservation. Stores, atomic memory operations, traps and host callbacks leave it.
(10_state.md R87; 46_a.md R731; 60_exceptions.md R1112, R1120.) -/
def Obligations.ReservationOwners : Prop :=
  ∀ (i : Instr) (s t : State), i.reserves = false → exec i s = .next t → t.reservation = s.reservation

/-- A step leaves pc a multiple of IALIGN/8 bytes. From a state with pc aligned, for every step but one that runs a host
callback, which may set pc. (10_state.md R62; 40_cycle.md R351; 42_control.md R500.) -/
def Obligations.PcStaysAligned : Prop :=
  ∀ (s t : State), s.readPc.toNat % instrAlign s.cfg = 0 →
    (∀ i, s.front = .execute i → i.callsHost = false) → step s = .next t → t.readPc.toNat % instrAlign t.cfg = 0

/-- ADD, SUB, SLT, SLTU, XOR, OR and AND complete with their results. Each writes x[rd] alone, and pc and instret
advance; nothing is written when rd is x0. (41_integer.md R400, R412, R413, R415, R416, R417, R420, R421;
10_state.md R52.) -/
def Obligations.RegisterResults : Prop :=
  ∀ (s : State) (rd rs1 rs2 : Reg),
    YieldsX (.add rd rs1 rs2) s rd (s.U rs1 + s.U rs2) 4 ∧
    YieldsX (.sub rd rs1 rs2) s rd (s.U rs1 - s.U rs2) 4 ∧
    YieldsX (.slt rd rs1 rs2) s rd (oneIf (decide (s.S rs1 < s.S rs2))) 4 ∧
    YieldsX (.sltu rd rs1 rs2) s rd (oneIf (decide (s.U rs1 < s.U rs2))) 4 ∧
    YieldsX (.xor rd rs1 rs2) s rd ((s.N rs1 ^^^ s.N rs2 : Nat) : Int) 4 ∧
    YieldsX (.or rd rs1 rs2) s rd ((s.N rs1 ||| s.N rs2 : Nat) : Int) 4 ∧
    YieldsX (.and rd rs1 rs2) s rd ((s.N rs1 &&& s.N rs2 : Nat) : Int) 4

/-- ADDI, SLTI, SLTIU, XORI, ORI, ANDI, LUI and AUIPC complete with their results. The immediate is sign-extended to
XLEN bits first; SLTIU then compares it as unsigned. The 20-bit field stands in bits 31:12, sign-extended; AUIPC
adds the address of the instruction. (41_integer.md R403 to R408, R401, R402; 30_encoding.md R270, R273.) -/
def Obligations.ImmediateResults : Prop :=
  (∀ (s : State) (rd rs1 : Reg) (imm : BitVec 12),
     YieldsX (.addi rd rs1 imm) s rd (s.U rs1 + imm.toInt) 4 ∧
     YieldsX (.slti rd rs1 imm) s rd (oneIf (decide (s.S rs1 < imm.toInt))) 4 ∧
     YieldsX (.sltiu rd rs1 imm) s rd (oneIf (decide (s.N rs1 < s.immN imm))) 4 ∧
     YieldsX (.xori rd rs1 imm) s rd ((s.N rs1 ^^^ s.immN imm : Nat) : Int) 4 ∧
     YieldsX (.ori rd rs1 imm) s rd ((s.N rs1 ||| s.immN imm : Nat) : Int) 4 ∧
     YieldsX (.andi rd rs1 imm) s rd ((s.N rs1 &&& s.immN imm : Nat) : Int) 4) ∧
  (∀ (s : State) (rd : Reg) (imm : BitVec 20),
     YieldsX (.lui rd imm) s rd (imm.toInt * 4096) 4 ∧
     YieldsX (.auipc rd imm) s rd ((s.readPc.toNat : Int) + imm.toInt * 4096) 4)

/-- SLL, SRL, SRA, SLLI, SRLI and SRAI complete with their results. A register amount counts modulo XLEN; an immediate
amount is one the encoding admits at this XLEN. (41_integer.md R400, R409, R410, R411, R414, R418, R419;
30_encoding.md R275.) -/
def Obligations.ShiftResults : Prop :=
  ∀ (s : State) (rd rs1 rs2 : Reg) (shamt : BitVec 6),
    YieldsX (.sll rd rs1 rs2) s rd (s.U rs1 * 2 ^ (s.N rs2 % s.cfg.xlen.bits)) 4 ∧
    YieldsX (.srl rd rs1 rs2) s rd (s.U rs1 / 2 ^ (s.N rs2 % s.cfg.xlen.bits)) 4 ∧
    YieldsX (.sra rd rs1 rs2) s rd (s.S rs1 / 2 ^ (s.N rs2 % s.cfg.xlen.bits)) 4 ∧
    (s.cfg.xlen.shamtOk shamt = true →
      YieldsX (.slli rd rs1 shamt) s rd (s.U rs1 * 2 ^ shamt.toNat) 4 ∧
      YieldsX (.srli rd rs1 shamt) s rd (s.U rs1 / 2 ^ shamt.toNat) 4 ∧
      YieldsX (.srai rd rs1 shamt) s rd (s.S rs1 / 2 ^ shamt.toNat) 4)

/-- The W forms complete with the 32-bit result, sign-extended. ADDIW, ADDW, SUBW, SLLIW, SRLIW, SRAIW, SLLW, SRLW and
SRAW, which exist when XLEN is 64. (41_integer.md R400, R422 to R430.) -/
def Obligations.WordResults : Prop :=
  ∀ (s : State) (rd rs1 rs2 : Reg) (imm : BitVec 12) (shamt : BitVec 5), s.cfg.xlen = .rv64 →
    YieldsX (.addiw rd rs1 imm) s rd (sext32Int (s.U rs1 + imm.toInt)) 4 ∧
    YieldsX (.addw rd rs1 rs2) s rd (sext32Int (s.U rs1 + s.U rs2)) 4 ∧
    YieldsX (.subw rd rs1 rs2) s rd (sext32Int (s.U rs1 - s.U rs2)) 4 ∧
    YieldsX (.slliw rd rs1 shamt) s rd (sext32Int (s.U32 rs1 * 2 ^ shamt.toNat)) 4 ∧
    YieldsX (.srliw rd rs1 shamt) s rd (sext32Int (s.U32 rs1 / 2 ^ shamt.toNat)) 4 ∧
    YieldsX (.sraiw rd rs1 shamt) s rd (s.S32 rs1 / 2 ^ shamt.toNat) 4 ∧
    YieldsX (.sllw rd rs1 rs2) s rd (sext32Int (s.U32 rs1 * 2 ^ (s.N rs2 % 32))) 4 ∧
    YieldsX (.srlw rd rs1 rs2) s rd (sext32Int (s.U32 rs1 / 2 ^ (s.N rs2 % 32))) 4 ∧
    YieldsX (.sraw rd rs1 rs2) s rd (s.S32 rs1 / 2 ^ (s.N rs2 % 32)) 4

/-- MUL, MULH, MULHSU, MULHU and MULW complete with the halves of the exact product. The high half is the exact product
divided by 2^XLEN, rounded down. (45_m.md R680 to R684, R689.) -/
def Obligations.ProductResults : Prop :=
  ∀ (s : State) (rd rs1 rs2 : Reg),
    YieldsX (.mul rd rs1 rs2) s rd (s.U rs1 * s.U rs2) 4 ∧
    YieldsX (.mulh rd rs1 rs2) s rd (s.S rs1 * s.S rs2 / s.size) 4 ∧
    YieldsX (.mulhsu rd rs1 rs2) s rd (s.S rs1 * s.U rs2 / s.size) 4 ∧
    YieldsX (.mulhu rd rs1 rs2) s rd (s.U rs1 * s.U rs2 / s.size) 4 ∧
    (s.cfg.xlen = .rv64 → YieldsX (.mulw rd rs1 rs2) s rd (sext32Int (s.U32 rs1 * s.U32 rs2)) 4)

/-- The divisions and remainders complete with their results, the corner cases among them. Division by zero gives all
ones, or the dividend as remainder; MIN by −1 gives MIN, or remainder zero. The corner cases are those of the XLEN
forms at 32 bits. (45_m.md R680, R685 to R688, R690 to R693.) -/
def Obligations.QuotientResults : Prop :=
  (∀ (s : State) (rd rs1 rs2 : Reg),
     YieldsX (.div rd rs1 rs2) s rd (if s.U rs2 = 0 then -1 else
       if s.S rs1 = -((s.size : Int) / 2) ∧ s.S rs2 = -1 then s.S rs1 else (s.S rs1).tdiv (s.S rs2)) 4 ∧
     YieldsX (.divu rd rs1 rs2) s rd (if s.U rs2 = 0 then -1 else s.U rs1 / s.U rs2) 4 ∧
     YieldsX (.rem rd rs1 rs2) s rd (if s.U rs2 = 0 then s.U rs1 else
       if s.S rs1 = -((s.size : Int) / 2) ∧ s.S rs2 = -1 then 0 else (s.S rs1).tmod (s.S rs2)) 4 ∧
     YieldsX (.remu rd rs1 rs2) s rd (if s.U rs2 = 0 then s.U rs1 else s.U rs1 % s.U rs2) 4) ∧
  (∀ (s : State) (rd rs1 rs2 : Reg), s.cfg.xlen = .rv64 →
     YieldsX (.divw rd rs1 rs2) s rd (if s.U32 rs2 = 0 then -1 else
       if s.S32 rs1 = -(2 ^ 31) ∧ s.S32 rs2 = -1 then s.S32 rs1 else (s.S32 rs1).tdiv (s.S32 rs2)) 4 ∧
     YieldsX (.divuw rd rs1 rs2) s rd (if s.U32 rs2 = 0 then -1 else sext32Int (s.U32 rs1 / s.U32 rs2)) 4 ∧
     YieldsX (.remw rd rs1 rs2) s rd (if s.U32 rs2 = 0 then s.S32 rs1 else
       if s.S32 rs1 = -(2 ^ 31) ∧ s.S32 rs2 = -1 then 0 else (s.S32 rs1).tmod (s.S32 rs2)) 4 ∧
     YieldsX (.remuw rd rs1 rs2) s rd (if s.U32 rs2 = 0 then s.S32 rs1 else sext32Int (s.U32 rs1 % s.U32 rs2)) 4)

/-- JAL, JALR and the six branches complete, and trap at a misaligned target. The link is pc + 4, the target comes from
the registers before the link is written, and JALR clears bit 0 of its target. No register, flag or byte of memory
changes. (42_control.md R500 to R502, R500, R503 to R508; 30_encoding.md R270, R274, R272.) -/
def Obligations.TransferResults : Prop :=
  (∀ (s : State) (rd rs1 : Reg) (off : BitVec 20) (imm : BitVec 12),
     Jumps (.jal rd off) s rd ((s.readPc.toNat : Int) + 4) (s.fromPc (off.toInt * 2)) ∧
     Jumps (.jalr rd rs1 imm) s rd ((s.readPc.toNat : Int) + 4) (s.fromReg rs1 imm.toInt)) ∧
  (∀ (s : State) (rs1 rs2 : Reg) (off : BitVec 12),
     Branches (.beq rs1 rs2 off) s (s.U rs1 = s.U rs2) (s.fromPc (off.toInt * 2)) 4 ∧
     Branches (.bne rs1 rs2 off) s (s.U rs1 ≠ s.U rs2) (s.fromPc (off.toInt * 2)) 4 ∧
     Branches (.blt rs1 rs2 off) s (s.S rs1 < s.S rs2) (s.fromPc (off.toInt * 2)) 4 ∧
     Branches (.bge rs1 rs2 off) s (s.S rs2 ≤ s.S rs1) (s.fromPc (off.toInt * 2)) 4 ∧
     Branches (.bltu rs1 rs2 off) s (s.U rs1 < s.U rs2) (s.fromPc (off.toInt * 2)) 4 ∧
     Branches (.bgeu rs1 rs2 off) s (s.U rs2 ≤ s.U rs1) (s.fromPc (off.toInt * 2)) 4)

/-- The integer loads complete with the extended value, or trap with the lowest refused byte. Any address is accepted,
aligned or not. The address is State.address, the function the meanings use: the sum of the register and the sign-
extended immediate modulo 2^XLEN; the value is little-endian. (43_loadstore.md R550 to R557, R562; 20_memory.md
R155, R157, R160, R161.) -/
def Obligations.LoadResults : Prop :=
  ∀ (s : State) (rd rs1 : Reg) (imm : BitVec 12),
    (s.address rs1 imm).toNat = ((s.U rs1 + imm.toInt) % s.size).toNat ∧
    LoadsX (.lb rd rs1 imm) s rd (s.address rs1 imm) 1 ((s.bytesAt (s.address rs1 imm).toNat 1 : Int).bmod (2 ^ 8)) 4 ∧
    LoadsX (.lh rd rs1 imm) s rd (s.address rs1 imm) 2 ((s.bytesAt (s.address rs1 imm).toNat 2 : Int).bmod (2 ^ 16)) 4 ∧
    LoadsX (.lw rd rs1 imm) s rd (s.address rs1 imm) 4 ((s.bytesAt (s.address rs1 imm).toNat 4 : Int).bmod (2 ^ 32)) 4 ∧
    LoadsX (.lbu rd rs1 imm) s rd (s.address rs1 imm) 1 (s.bytesAt (s.address rs1 imm).toNat 1 : Int) 4 ∧
    LoadsX (.lhu rd rs1 imm) s rd (s.address rs1 imm) 2 (s.bytesAt (s.address rs1 imm).toNat 2 : Int) 4 ∧
    (s.cfg.xlen = .rv64 →
      LoadsX (.lwu rd rs1 imm) s rd (s.address rs1 imm) 4 (s.bytesAt (s.address rs1 imm).toNat 4 : Int) 4 ∧
      LoadsX (.ld rd rs1 imm) s rd (s.address rs1 imm) 8 (s.bytesAt (s.address rs1 imm).toNat 8 : Int) 4)

/-- The integer stores complete with their bytes written, or trap with the lowest refused byte. The address is the sum
of the register and the sign-extended immediate modulo 2^XLEN. Every other byte of memory, every register and every
flag is kept. A refused store writes nothing, but for the first page of a split store: that it is all or nothing, by
a free choice, is the model's reading (log entry 10); a memory that checks every byte first writes nothing.
(43_loadstore.md R550, R558 to R561; 20_memory.md R155, R157, R160 to R162, R195.) -/
def Obligations.StoreResults : Prop :=
  ∀ (s : State) (rs1 rs2 : Reg) (imm : BitVec 12),
    (s.address rs1 imm).toNat = ((s.U rs1 + imm.toInt) % s.size).toNat ∧
    Stores (.sb rs1 rs2 imm) s (s.address rs1 imm) 1 (s.N rs2) 4 ∧
    Stores (.sh rs1 rs2 imm) s (s.address rs1 imm) 2 (s.N rs2) 4 ∧
    Stores (.sw rs1 rs2 imm) s (s.address rs1 imm) 4 (s.N rs2) 4 ∧
    (s.cfg.xlen = .rv64 → Stores (.sd rs1 rs2 imm) s (s.address rs1 imm) 8 (s.N rs2) 4)

/-- The fetch right after a store reads the bytes it stored. SW to the address of the next instruction: the next fetch
answers the stored word, with no fence between. (20_memory.md R190; 70_reset_and_hazards.md R1212.) -/
def Obligations.FetchSeesTheStore : Prop :=
  ∀ (s : State) (rs1 rs2 : Reg) (imm : BitVec 12), s.Accepts .write (s.address rs1 imm).toNat 4 →
    s.Accepts .fetch (s.address rs1 imm).toNat 4 → (s.readPc.toNat + 4) % s.size = (s.address rs1 imm).toNat →
    s.N rs2 % 4 = 3 →
    ∃ t, exec (.sw rs1 rs2 imm) s = .next t ∧ t.fetch = .ok (.word (BitVec.ofNat 32 (s.N rs2)))

/-- What refuses one byte, and that an access is refused with the kind of its lowest refused byte. Whether an unmapped
page is created on first access is a parameter of the memory (R174; log entry 11). Addresses modulo 2^XLEN, in the
order of the access. R161 says so of reads and writes; that a fetch follows the same rule is the model's reading
(log entry 14). (20_memory.md R171, R173, R174, R157, R161.) -/
def Obligations.MemoryRefusals : Prop :=
  (∀ (m : Memory) (b : Nat),
     (m.cap ≤ b → ∀ acc, m.byteRefusal acc b = some .outOfBoundsFault) ∧
     (b < m.cap → assocGet m.pages (b / 4096) = none → m.unmapped = none →
       m.byteRefusal .fetch b = some .executionFault ∧ m.byteRefusal .read b = some .outOfBoundsFault ∧
         m.byteRefusal .write b = some .outOfBoundsFault) ∧
     (∀ a, b < m.cap →
       (assocGet m.pages (b / 4096) = some a ∨ assocGet m.pages (b / 4096) = none ∧ m.unmapped = some a) →
       m.byteRefusal .fetch b = (if a.executable then none else some .executionFault) ∧
         m.byteRefusal .read b = (if a.readable then none else some .readFault) ∧
         m.byteRefusal .write b = (if a.writable then none else some .writeFault))) ∧
  (∀ (s : State) (acc : Access) (a : Word) (n : Nat),
     (s.refusal acc a n = none ↔ s.Accepts acc a.toNat n) ∧
     ∀ kind, s.refusal acc a n = some kind ↔ s.Refuses acc a.toNat n kind)

/-- FENCE and FENCE.I complete with nothing changed but pc and instret. Whatever their fields hold. (44_system.md R600,
R601; 20_memory.md R175, R177, R191.) -/
def Obligations.FencesAreNoOps : Prop :=
  ∀ (s : State) (fm pred succ : BitVec 4) (imm : BitVec 12) (rs1 rd : Reg),
    (∃ t, exec (.fence fm pred succ rs1 rd) s = .next t ∧ OnlyX s t 0#5 ∧ Advanced s t 4) ∧
    (∃ t, exec (.fenceI imm rs1 rd) s = .next t ∧ OnlyX s t 0#5 ∧ Advanced s t 4)

/-- ECALL, EBREAK and C.EBREAK run the installed callback and end as it ends, and trap when none is installed. The
callback is the oracle Config.hostReply (log entry 8), so this holds for every callback: after a normal return pc
advances from the pc it left and the instruction retires; a fatal kind it reports is the trap, with its writes kept.
ECALL records the number in x17, EBREAK and C.EBREAK their own bits. This is what the instructions do in the reset
state. (44_system.md R602, R603; 49_c.md R1038; 60_exceptions.md R1120, R1121, R1105, R1110.) -/
def Obligations.HostCallResults : Prop :=
  (∀ (s : State),
     (s.N 17#5 < s.cfg.nsyscalls → s.N 17#5 ∈ s.syscalls →
       let reply := Config.hostReply (.syscall (s.readX 17#5)) s.draws s
       let u := { s with draws := s.draws + 1 }.hostActs reply.actions
       exec .ecall s = .next (match reply.fatal with
         | none => { u with pc := u.cfg.xlen.narrow (u.pc + 4), instret := u.instret + 1 }
         | some k => { u with run := .returned (.trap k.1 (s.cfg.xlen.narrow k.2)) })) ∧
     (s.debugHandler = true →
       let reply := Config.hostReply .debug s.draws s
       let u := { s with draws := s.draws + 1 }.hostActs reply.actions
       exec .ebreak s = .next (match reply.fatal with
         | none => { u with pc := u.cfg.xlen.narrow (u.pc + 4), instret := u.instret + 1 }
         | some k => { u with run := .returned (.trap k.1 (s.cfg.xlen.narrow k.2)) }) ∧
       exec .cEbreak s = .next (match reply.fatal with
         | none => { u with pc := u.cfg.xlen.narrow (u.pc + 2), instret := u.instret + 1 }
         | some k => { u with run := .returned (.trap k.1 (s.cfg.xlen.narrow k.2)) }))) ∧
  (∀ (s : State),
     (¬(s.N 17#5 < s.cfg.nsyscalls ∧ s.N 17#5 ∈ s.syscalls) →
       TrapsWith .ecall s .unhandledSyscall (s.readX 17#5)) ∧
     (s.debugHandler = false →
       TrapsWith .ebreak s .unhandledSyscall 0x00100073#64 ∧ TrapsWith .cEbreak s .unhandledSyscall 0x9002#64))

/-- The six Zicsr instructions on fflags, frm and fcsr complete with the old value read and the live bits written. A set
or a clear with rs1 = x0 or uimm = 0 writes nothing; nothing else changes. (44_system.md R605 to R611, R613;
10_state.md R71, R72, R73, R78, R79.) -/
def Obligations.CsrWrites : Prop :=
  ∀ (s : State) (rd rs1 : Reg) (uimm : BitVec 5) (num : CsrNum), s.cfg.extF = true →
    (num = 1#12 ∨ num = 2#12 ∨ num = 3#12) →
    YieldsCsr (.csrrw rd rs1 num) s rd num (s.N rs1) ∧
    YieldsCsr (.csrrs rd rs1 num) s rd num (s.csrOld num ||| s.N rs1) ∧
    YieldsCsr (.csrrc rd rs1 num) s rd num (s.csrOld num - (s.csrOld num &&& s.N rs1)) ∧
    YieldsCsr (.csrrwi rd uimm num) s rd num uimm.toNat ∧
    YieldsCsr (.csrrsi rd uimm num) s rd num (s.csrOld num ||| uimm.toNat) ∧
    YieldsCsr (.csrrci rd uimm num) s rd num (s.csrOld num - (s.csrOld num &&& uimm.toNat))

/-- The counters are read by a set or a clear that writes nothing. cycle and instret are the low XLEN bits of the
retired count before this instruction; time is a fresh draw, the opaque value Config.timeDraw (log entry 9), so this
holds for every value of it; each read of time or timeh takes one draw, so that the next read gets another, and the
other counters take none; the count of draws is the model's own field. The high halves exist on RV32. (10_state.md
R74 to R77; 44_system.md R607, R608, R610, R611.) -/
def Obligations.CounterReads : Prop :=
  ∀ (s : State) (rd : Reg) (i : Instr) (num : CsrNum),
    (i = .csrrs rd 0#5 num ∨ i = .csrrc rd 0#5 num ∨ i = .csrrsi rd 0#5 num ∨ i = .csrrci rd 0#5 num) →
    let reads := fun (v : Nat) (drawn : Nat) =>
      YieldsX i s rd (v : Int) 4 ∧ ∀ t, exec i s = .next t → t.draws = s.draws + drawn
    (num = 0xC00#12 → reads s.instret.toNat 0) ∧
    (num = 0xC01#12 → reads (Config.timeDraw s.draws).toNat 1) ∧
    (num = 0xC02#12 → reads s.instret.toNat 0) ∧
    (s.cfg.xlen = .rv32 →
      (num = 0xC80#12 → reads (s.instret.toNat / 2 ^ 32) 0) ∧
      (num = 0xC81#12 → reads ((Config.timeDraw s.draws).toNat / 2 ^ 32) 1) ∧
      (num = 0xC82#12 → reads (s.instret.toNat / 2 ^ 32) 0))

/-- A Zicsr instruction traps on a CSR that does not exist and on a write to a read-only one. fflags, frm and fcsr exist
with EXT_F, the high halves on RV32. Whether a write is attempted depends on the register number or the immediate,
not on the value. (44_system.md R604, R605; 10_state.md R70, R78, R80.) -/
def Obligations.CsrTraps : Prop :=
  ∀ (s : State) (rd rs1 : Reg) (uimm : BitVec 5) (num : CsrNum),
    let fp := num = 1#12 ∨ num = 2#12 ∨ num = 3#12
    let counter := num = 0xC00#12 ∨ num = 0xC01#12 ∨ num = 0xC02#12
    let high := num = 0xC80#12 ∨ num = 0xC81#12 ∨ num = 0xC82#12
    let exist := fp ∧ s.cfg.extF = true ∨ counter ∨ high ∧ s.cfg.xlen = .rv32
    let traps := fun i : Instr => TrapsWith i s .illegalInstruction i.bits
    (¬exist → traps (.csrrw rd rs1 num) ∧ traps (.csrrs rd rs1 num) ∧ traps (.csrrc rd rs1 num) ∧
      traps (.csrrwi rd uimm num) ∧ traps (.csrrsi rd uimm num) ∧ traps (.csrrci rd uimm num)) ∧
    (counter ∨ high →
      traps (.csrrw rd rs1 num) ∧ traps (.csrrwi rd uimm num) ∧
      (rs1 ≠ 0#5 → traps (.csrrs rd rs1 num) ∧ traps (.csrrc rd rs1 num)) ∧
      (uimm ≠ 0#5 → traps (.csrrsi rd uimm num) ∧ traps (.csrrci rd uimm num)))

/-- LR.W and LR.D complete with the value read and the reservation set. The address is aligned and the memory accepts
the read; every combination of aq and rl is the same. (46_a.md R730 to R732, R734.) -/
def Obligations.LoadReservedResults : Prop :=
  ∀ (s : State) (rd rs1 : Reg) (aq rl : Bool),
    (s.N rs1 % 4 = 0 → s.Accepts .read (s.N rs1) 4 →
      ∃ t, exec (.lrW rd rs1 aq rl) s = .next t ∧
        (rd ≠ 0#5 → t.U rd = ((s.bytesAt (s.N rs1) 4 : Int).bmod (2 ^ 32)) % s.size) ∧
        t.reservation = some { addr := s.readX rs1, size := .word } ∧ SameMachine s t ∧ SameXBut s t [rd] ∧
        t.readX 0#5 = 0 ∧ SameFBut s t [] ∧ t.fcsr = s.fcsr ∧ SameMem s t ∧ Advanced s t 4) ∧
    (s.cfg.xlen = .rv64 → s.N rs1 % 8 = 0 → s.Accepts .read (s.N rs1) 8 →
      ∃ t, exec (.lrD rd rs1 aq rl) s = .next t ∧ (rd ≠ 0#5 → t.U rd = (s.bytesAt (s.N rs1) 8 : Int)) ∧
        t.reservation = some { addr := s.readX rs1, size := .double } ∧ SameMachine s t ∧ SameXBut s t [rd] ∧
        t.readX 0#5 = 0 ∧ SameFBut s t [] ∧ t.fcsr = s.fcsr ∧ SameMem s t ∧ Advanced s t 4)

/-- SC succeeds exactly when the reservation is its own address and size, and always clears it. Success stores and gives
0; failure makes no memory access and gives 1; a refused write traps with the reservation gone and nothing else
changed. (46_a.md R730, R731, R733, R735; 20_memory.md R178.) -/
def Obligations.StoreConditionalResults : Prop :=
  ∀ (s : State) (rd rs1 rs2 : Reg) (aq rl : Bool) (i : Instr) (sz : ResSize),
    (i = .scW rd rs1 rs2 aq rl ∧ sz = .word ∨ s.cfg.xlen = .rv64 ∧ i = .scD rd rs1 rs2 aq rl ∧ sz = .double) →
    s.N rs1 % sz.bytes = 0 →
    (s.reservation = some { addr := s.readX rs1, size := sz } → s.Accepts .write (s.N rs1) sz.bytes →
      ∃ t, exec i s = .next t ∧ (rd ≠ 0#5 → t.U rd = 0) ∧ t.reservation = none ∧
        Stored s t (s.N rs1) sz.bytes (s.N rs2) ∧ SameMachine s t ∧ SameXBut s t [rd] ∧ t.readX 0#5 = 0 ∧
        SameFBut s t [] ∧ t.fcsr = s.fcsr ∧ Advanced s t 4) ∧
    (s.reservation ≠ some { addr := s.readX rs1, size := sz } →
      ∃ t, exec i s = .next t ∧ (rd ≠ 0#5 → t.U rd = 1) ∧ t.reservation = none ∧ SameMem s t ∧ SameMachine s t ∧
        SameXBut s t [rd] ∧ t.readX 0#5 = 0 ∧ SameFBut s t [] ∧ t.fcsr = s.fcsr ∧ Advanced s t 4) ∧
    (∀ kind, s.reservation = some { addr := s.readX rs1, size := sz } → s.Refuses .write (s.N rs1) sz.bytes kind →
      exec i s = .next { s with reservation := none, run := .returned (.trap kind (s.readX rs1)) })

/-- The nine AMO.W complete with the old word read and the new one written. The old word is sign-extended into x[rd];
the operation is on 32 bits, signed for MIN and MAX, unsigned for MINU and MAXU. (46_a.md R730, R736 to R745.) -/
def Obligations.WordAtomicResults : Prop :=
  ∀ (s : State) (rd rs1 rs2 : Reg) (aq rl : Bool), s.N rs1 % 4 = 0 → s.Accepts .read (s.N rs1) 4 →
    s.Accepts .write (s.N rs1) 4 →
    let t := s.bytesAt (s.N rs1) 4
    let v := s.N rs2 % 2 ^ 32
    let yields := fun (i : Instr) (new : Nat) => YieldsAmo i s rd (s.N rs1) 4 ((t : Int).bmod (2 ^ 32)) new
    yields (.amoswapW rd rs1 rs2 aq rl) v ∧
    yields (.amoaddW rd rs1 rs2 aq rl) (t + v) ∧
    yields (.amoxorW rd rs1 rs2 aq rl) (t ^^^ v) ∧
    yields (.amoandW rd rs1 rs2 aq rl) (t &&& v) ∧
    yields (.amoorW rd rs1 rs2 aq rl) (t ||| v) ∧
    yields (.amominW rd rs1 rs2 aq rl) (if (t : Int).bmod (2 ^ 32) ≤ (v : Int).bmod (2 ^ 32) then t else v) ∧
    yields (.amomaxW rd rs1 rs2 aq rl) (if (t : Int).bmod (2 ^ 32) ≤ (v : Int).bmod (2 ^ 32) then v else t) ∧
    yields (.amominuW rd rs1 rs2 aq rl) (if t ≤ v then t else v) ∧
    yields (.amomaxuW rd rs1 rs2 aq rl) (if t ≤ v then v else t)

/-- The nine AMO.D complete with the old doubleword read and the new one written. They exist when XLEN is 64. (46_a.md
R730, R736, R746 to R754.) -/
def Obligations.DoubleAtomicResults : Prop :=
  ∀ (s : State) (rd rs1 rs2 : Reg) (aq rl : Bool), s.cfg.xlen = .rv64 → s.N rs1 % 8 = 0 →
    s.Accepts .read (s.N rs1) 8 → s.Accepts .write (s.N rs1) 8 →
    let t := s.bytesAt (s.N rs1) 8
    let v := s.N rs2
    let yields := fun (i : Instr) (new : Nat) => YieldsAmo i s rd (s.N rs1) 8 (t : Int) new
    yields (.amoswapD rd rs1 rs2 aq rl) v ∧
    yields (.amoaddD rd rs1 rs2 aq rl) (t + v) ∧
    yields (.amoxorD rd rs1 rs2 aq rl) (t ^^^ v) ∧
    yields (.amoandD rd rs1 rs2 aq rl) (t &&& v) ∧
    yields (.amoorD rd rs1 rs2 aq rl) (t ||| v) ∧
    yields (.amominD rd rs1 rs2 aq rl) (if (t : Int).bmod (2 ^ 64) ≤ (v : Int).bmod (2 ^ 64) then t else v) ∧
    yields (.amomaxD rd rs1 rs2 aq rl) (if (t : Int).bmod (2 ^ 64) ≤ (v : Int).bmod (2 ^ 64) then v else t) ∧
    yields (.amominuD rd rs1 rs2 aq rl) (if t ≤ v then t else v) ∧
    yields (.amomaxuD rd rs1 rs2 aq rl) (if t ≤ v then v else t)

/-- An atomic checks alignment, then the read, then the write, and a failing check leaves everything as it was.
Alignment for all twenty-two; the read for LR and the AMOs; the write for the AMOs, before any byte and before rd is
written. (46_a.md R730; 20_memory.md R161, R163; 60_exceptions.md R1106.) -/
def Obligations.AtomicTraps : Prop :=
  ∀ (i : Instr) (s : State) (sz : ResSize) (rs1 : Reg) (kind : TrapKind),
    (i.atomicRead = some (sz, rs1) ∨ i.scAccess = some (sz, rs1) → s.N rs1 % sz.bytes ≠ 0 →
      TrapsWith i s .misalignedFault (s.readX rs1)) ∧
    (i.atomicRead = some (sz, rs1) → s.N rs1 % sz.bytes = 0 → s.Refuses .read (s.N rs1) sz.bytes kind →
      TrapsWith i s kind (s.readX rs1)) ∧
    (i.amoAccess = some (sz, rs1) → s.N rs1 % sz.bytes = 0 → s.Accepts .read (s.N rs1) sz.bytes →
      s.Refuses .write (s.N rs1) sz.bytes kind → TrapsWith i s kind (s.readX rs1))

/-- FLW, FSW, FLD and FSD complete or trap as the integer loads and stores do. The address is that of the integer forms.
FLW boxes the 32 bits it loads; FSW stores the low 32 bits of the register with no boxing test; no flag changes. A
refused store writes nothing, but for the first page of a split store: that it is all or nothing, by a free choice,
is the model's reading (log entry 10); a memory that checks every byte first writes nothing. (47_f.md R800, R801,
R815, R820, R821; 48_d.md R901, R902; 43_loadstore.md R550; 20_memory.md R157, R162, R195.) -/
def Obligations.FloatLoadStoreResults : Prop :=
  ∀ (s : State) (rs1 : Reg) (rd rs2 : FReg) (imm : BitVec 12),
    (s.address rs1 imm).toNat = ((s.U rs1 + imm.toInt) % s.size).toNat ∧
    LoadsF (.flw rd rs1 imm) s rd (s.address rs1 imm) 4
      (BitVec.ofNat 64 (0xFFFFFFFF00000000 + s.bytesAt (s.address rs1 imm).toNat 4)) 4 ∧
    LoadsF (.fld rd rs1 imm) s rd (s.address rs1 imm) 8
      (BitVec.ofNat 64 (s.bytesAt (s.address rs1 imm).toNat 8)) 4 ∧
    Stores (.fsw rs1 rs2 imm) s (s.address rs1 imm) 4 (s.readF rs2).toNat 4 ∧
    Stores (.fsd rs1 rs2 imm) s (s.address rs1 imm) 8 (s.readF rs2).toNat 4

/-- The operand of a floating-point register, the value of its bits, the boxed result, and the encodings of results and
flags. A single-precision operand is read from all 64 bits: the low 32 under an all-ones upper half, else the
canonical NaN. The value of a pattern is read off its sign, exponent and fraction fields, for both formats: a NaN,
signaling when the top fraction bit is 0, an infinity, or the real number they encode, with the sign kept on a zero.
A single-precision result is boxed. (47_f.md R800, R801, R804 to R807; 48_d.md R900; 10_state.md R71.) -/
def Obligations.BoxedSingles : Prop :=
  (∀ (v : BitVec 64) (r : BitVec 32),
    (0xFFFFFFFF00000000 ≤ v.toNat → (unboxS v).toNat = v.toNat - 0xFFFFFFFF00000000) ∧
    (v.toNat < 0xFFFFFFFF00000000 → unboxS v = 0x7FC00000#32) ∧
    (boxS r).toNat = 0xFFFFFFFF00000000 + r.toNat) ∧
  (∀ (s : State) (r : FReg),
    (0xFFFFFFFF00000000 ≤ (s.readF r).toNat → (s.readS r).toNat = (s.readF r).toNat - 0xFFFFFFFF00000000) ∧
    ((s.readF r).toNat < 0xFFFFFFFF00000000 → s.readS r = 0x7FC00000#32) ∧
    s.valS r = Fmt.single.value (s.readS r).toNat ∧ s.valD r = Fmt.double.value (s.readF r).toNat ∧
    s.fflags.toNat = s.fcsr.toNat % 32) ∧
  (∀ (t : Fmt) (bits p w : Nat), (t = .single ∧ p = 23 ∧ w = 8 ∨ t = .double ∧ p = 52 ∧ w = 11) →
    let neg := bits.testBit (p + w)
    let e := bits / 2 ^ p % 2 ^ w
    let frac := bits % 2 ^ p
    let scale := fun k : ℤ => (2 : ℝ) ^ (k - (2 ^ (w - 1) - 1) - p)
    ((t.value bits).isNaN = true ↔ e = 2 ^ w - 1 ∧ frac ≠ 0) ∧
    ((t.value bits).isSNaN = true ↔ e = 2 ^ w - 1 ∧ frac ≠ 0 ∧ frac.testBit (p - 1) = false) ∧
    (e = 2 ^ w - 1 → frac = 0 → t.value bits = .inf neg) ∧
    (e ≠ 2 ^ w - 1 → ∃ m k, t.value bits = .fin neg m k) ∧
    (e = 0 → (t.value bits).Real ((if neg then -1 else 1) * frac * scale 1)) ∧
    (e ≠ 0 → e ≠ 2 ^ w - 1 → (t.value bits).Real ((if neg then -1 else 1) * (2 ^ p + frac) * scale e)) ∧
    t.signBit = p + w ∧ t.infBits = (2 ^ w - 1) * 2 ^ p ∧ t.canonNaN = (2 ^ w - 1) * 2 ^ p + 2 ^ (p - 1) ∧
    ∀ sign mag, t.withSign sign mag = (if sign then 2 ^ (p + w) else 0) + mag) ∧
  flagNV = 16#5 ∧ flagDZ = 8#5 ∧ flagOF = 4#5 ∧ flagUF = 2#5 ∧ flagNX = 1#5

/-- The effective rounding mode, and that each of the thirty-six instructions with an rm field traps when it is
reserved. Effective mode: frm when rm is 111, else rm; 000 to 100 are RNE, RTZ, RDN, RUP and RMM, and 101, 110 and
111 are reserved. A trap reads, writes and flags nothing. (47_f.md R803, R818; 10_state.md R72.) -/
def Obligations.ReservedRoundingTraps : Prop :=
  ∀ (s : State) (rm : BitVec 3),
    let effective := if rm = 7#3 then s.fcsr.toNat / 32 else rm.toNat
    (effective = 0 → s.roundingMode rm = some .rne) ∧ (effective = 1 → s.roundingMode rm = some .rtz) ∧
    (effective = 2 → s.roundingMode rm = some .rdn) ∧ (effective = 3 → s.roundingMode rm = some .rup) ∧
    (effective = 4 → s.roundingMode rm = some .rmm) ∧
    (5 ≤ effective → s.roundingMode rm = none) ∧ s.frm.toNat = s.fcsr.toNat / 32 ∧
    ∀ i : Instr, i.roundingField = some rm → 5 ≤ effective → TrapsWith i s .illegalInstruction i.bits

/-- The floating-point arithmetic instructions complete with the result and its flags. The operands are the values of
the unboxed registers; what the operations of Fmt compute is the matter of OperationsRoundOnce,
SquareRootRoundsOnce, SpecialSums and SpecialProducts. frm and every other register are kept. Single results are
boxed; the double forms use all 64 bits of the registers. The negated operands of FMSUB, FNMSUB and FNMADD have the
opposite sign, a zero and an infinity included; a NaN stays as it is. (47_f.md R800, R801, R803, R804, R809, R822 to
R830; 48_d.md R900, R903 to R911.) -/
def Obligations.FloatArithmetic : Prop :=
  (∀ (s : State) (rd rs1 rs2 rs3 : FReg) (rm : BitVec 3) (m : RoundingMode), s.roundingMode rm = some m →
     let yields := fun (i : Instr) (r : FRes) => YieldsF i s rd (boxS (BitVec.ofNat 32 r.bits)) r.flags 4
     yields (.faddS rd rs1 rs2 rm) (Fmt.single.add m (s.valS rs1) (s.valS rs2)) ∧
     yields (.fsubS rd rs1 rs2 rm) (Fmt.single.sub m (s.valS rs1) (s.valS rs2)) ∧
     yields (.fmulS rd rs1 rs2 rm) (Fmt.single.mul m (s.valS rs1) (s.valS rs2)) ∧
     yields (.fdivS rd rs1 rs2 rm) (Fmt.single.div m (s.valS rs1) (s.valS rs2)) ∧
     yields (.fsqrtS rd rs1 rm) (Fmt.single.sqrt m (s.valS rs1)) ∧
     yields (.fmaddS rd rs1 rs2 rs3 rm) (Fmt.single.fma m (s.valS rs1) (s.valS rs2) (s.valS rs3)) ∧
     yields (.fmsubS rd rs1 rs2 rs3 rm) (Fmt.single.fma m (s.valS rs1) (s.valS rs2) (s.valS rs3).neg) ∧
     yields (.fnmsubS rd rs1 rs2 rs3 rm) (Fmt.single.fma m (s.valS rs1).neg (s.valS rs2) (s.valS rs3)) ∧
     yields (.fnmaddS rd rs1 rs2 rs3 rm) (Fmt.single.fma m (s.valS rs1).neg (s.valS rs2) (s.valS rs3).neg)) ∧
  (∀ (s : State) (rd rs1 rs2 rs3 : FReg) (rm : BitVec 3) (m : RoundingMode), s.roundingMode rm = some m →
     let yields := fun (i : Instr) (r : FRes) => YieldsF i s rd (BitVec.ofNat 64 r.bits) r.flags 4
     yields (.faddD rd rs1 rs2 rm) (Fmt.double.add m (s.valD rs1) (s.valD rs2)) ∧
     yields (.fsubD rd rs1 rs2 rm) (Fmt.double.sub m (s.valD rs1) (s.valD rs2)) ∧
     yields (.fmulD rd rs1 rs2 rm) (Fmt.double.mul m (s.valD rs1) (s.valD rs2)) ∧
     yields (.fdivD rd rs1 rs2 rm) (Fmt.double.div m (s.valD rs1) (s.valD rs2)) ∧
     yields (.fsqrtD rd rs1 rm) (Fmt.double.sqrt m (s.valD rs1)) ∧
     yields (.fmaddD rd rs1 rs2 rs3 rm) (Fmt.double.fma m (s.valD rs1) (s.valD rs2) (s.valD rs3)) ∧
     yields (.fmsubD rd rs1 rs2 rs3 rm) (Fmt.double.fma m (s.valD rs1) (s.valD rs2) (s.valD rs3).neg) ∧
     yields (.fnmsubD rd rs1 rs2 rs3 rm) (Fmt.double.fma m (s.valD rs1).neg (s.valD rs2) (s.valD rs3)) ∧
     yields (.fnmaddD rd rs1 rs2 rs3 rm) (Fmt.double.fma m (s.valD rs1).neg (s.valD rs2) (s.valD rs3).neg)) ∧
  (∀ (v : FVal) (n : Bool) (k : Nat) (e : Int) (x : ℝ),
     (v.Real x → v.neg.Real (-x)) ∧ (v = .fin n k e → v.neg = .fin (!n) k e) ∧ (v = .inf n → v.neg = .inf (!n)) ∧
       (v.isNaN = true → v.neg = v))

/-- Sum, difference, product, quotient, fused multiply-add and conversion are the exact real result rounded once. For
both formats, every mode and operands that are numbers, where the exact result is not zero: rounding, overflow,
subnormal results, NX, OF and UF with tininess after rounding are all as R807 says of the exact real value. (47_f.md
R807, R809, R813, R814.) -/
def Obligations.OperationsRoundOnce : Prop :=
  ∀ (t : Fmt) (m : RoundingMode) (a b c : FVal) (x y z : ℝ), a.Real x → b.Real y → c.Real z →
    (x + y ≠ 0 → t.RoundsTo m (x + y) (t.add m a b)) ∧
    (x - y ≠ 0 → t.RoundsTo m (x - y) (t.sub m a b)) ∧
    (x * y ≠ 0 → t.RoundsTo m (x * y) (t.mul m a b)) ∧
    (x ≠ 0 → y ≠ 0 → t.RoundsTo m (x / y) (t.div m a b)) ∧
    (x * y + z ≠ 0 → t.RoundsTo m (x * y + z) (t.fma m a b c)) ∧
    (x ≠ 0 → t.RoundsTo m x (t.roundNum m a)) ∧
    (∀ n : ℤ, n ≠ 0 → t.RoundsTo m (n : ℝ) (t.ofInt m n))

/-- The square root of a positive number is the exact real root rounded once. For both formats and every mode. (47_f.md
R807, R830; 48_d.md R911.) -/
def Obligations.SquareRootRoundsOnce : Prop :=
  ∀ (t : Fmt) (m : RoundingMode) (a : FVal) (x : ℝ), a.Real x → 0 < x → t.RoundsTo m (Real.sqrt x) (t.sqrt m a)

/-- Sums, differences and fused multiply-adds with a NaN or an infinity, and exact zero results. A NaN operand gives the
canonical NaN, with NV when an operand is signaling; opposite infinities are invalid; an exact zero sum is +0, under
RDN −0, and two zeros of one sign keep it; a difference is as the sum with the second operand's sign flipped. ∞ × 0
is invalid even when the addend is a quiet NaN; else a NaN gives the canonical NaN; an infinite product, of two
infinities or of an infinity and a nonzero number in either order, meets the addend as in a sum; an exact zero takes
its sign as a sum of the product and the addend does. (47_f.md R805, R806, R808, R809.) -/
def Obligations.SpecialSums : Prop :=
  (∀ (t : Fmt) (m : RoundingMode) (a b : FVal),
     (a.isNaN = true ∨ b.isNaN = true →
       t.add m a b = { bits := t.canonNaN, flags := flagIf (a.isSNaN || b.isSNaN) flagNV } ∧
         t.sub m a b = { bits := t.canonNaN, flags := flagIf (a.isSNaN || b.isSNaN) flagNV }) ∧
     (∀ n, t.add m (.inf n) (.inf (!n)) = { bits := t.canonNaN, flags := flagNV } ∧
       t.sub m (.inf n) (.inf n) = { bits := t.canonNaN, flags := flagNV } ∧
       t.add m (.inf n) (.inf n) = { bits := t.withSign n t.infBits, flags := 0#5 } ∧
       t.sub m (.inf n) (.inf (!n)) = { bits := t.withSign n t.infBits, flags := 0#5 }) ∧
     (∀ n x, a.Real x →
       t.add m (.inf n) a = { bits := t.withSign n t.infBits, flags := 0#5 } ∧
         t.add m a (.inf n) = { bits := t.withSign n t.infBits, flags := 0#5 } ∧
         t.sub m (.inf n) a = { bits := t.withSign n t.infBits, flags := 0#5 } ∧
         t.sub m a (.inf n) = { bits := t.withSign (!n) t.infBits, flags := 0#5 }) ∧
     (∀ na ma ea nb mb eb x, FVal.Real (.fin na ma ea) x → FVal.Real (.fin nb mb eb) (-x) →
       t.add m (.fin na ma ea) (.fin nb mb eb) =
         { bits := t.withSign (if ma = 0 ∧ na = nb then na else decide (m = .rdn)) 0, flags := 0#5 }) ∧
     (∀ na ma ea nb mb eb x, FVal.Real (.fin na ma ea) x → FVal.Real (.fin nb mb eb) x →
       t.sub m (.fin na ma ea) (.fin nb mb eb) =
         { bits := t.withSign (if ma = 0 ∧ na ≠ nb then na else decide (m = .rdn)) 0, flags := 0#5 })) ∧
  (∀ (t : Fmt) (m : RoundingMode) (a b c : FVal) (na nb nc : Bool) (ma mb mc : Nat) (ea eb ec : Int),
     t.fma m (.inf na) (.fin nb 0 eb) c = { bits := t.canonNaN, flags := flagNV } ∧
     t.fma m (.fin na 0 ea) (.inf nb) c = { bits := t.canonNaN, flags := flagNV } ∧
     (a.infTimesZero b = false → (a.isNaN = true ∨ b.isNaN = true ∨ c.isNaN = true) →
       t.fma m a b c = { bits := t.canonNaN, flags := flagIf (a.isSNaN || b.isSNaN || c.isSNaN) flagNV }) ∧
     (a = .inf na ∧ b = .inf nb ∨ a = .inf na ∧ b = .fin nb mb eb ∧ mb ≠ 0 ∨ a = .fin na ma ea ∧ ma ≠ 0 ∧ b = .inf nb →
       t.fma m a b (.fin nc mc ec) = { bits := t.withSign (na != nb) t.infBits, flags := 0#5 } ∧
       t.fma m a b (.inf nc) = (if (na != nb) = nc then { bits := t.withSign nc t.infBits, flags := 0#5 }
         else { bits := t.canonNaN, flags := flagNV })) ∧
     t.fma m (.fin na ma ea) (.fin nb mb eb) (.inf nc) = { bits := t.withSign nc t.infBits, flags := 0#5 } ∧
     (∀ x y, FVal.Real (.fin na ma ea) x → FVal.Real (.fin nb mb eb) y → FVal.Real (.fin nc mc ec) (-(x * y)) →
       t.fma m (.fin na ma ea) (.fin nb mb eb) (.fin nc mc ec) =
         { bits := t.withSign (if mc = 0 ∧ (na != nb) = nc then nc else decide (m = .rdn)) 0, flags := 0#5 }))

/-- Products, quotients and square roots with a NaN, an infinity or a zero. The sign of a product or a quotient is the
exclusive or; 0 × ∞, 0 / 0, ∞ / ∞ and the root of a negative number are invalid; a nonzero number over zero is an
infinity with DZ. (47_f.md R805, R806, R808.) -/
def Obligations.SpecialProducts : Prop :=
  ∀ (t : Fmt) (m : RoundingMode) (a b : FVal) (na nb : Bool) (ma mb : Nat) (ea eb : Int),
    (a.isNaN = true ∨ b.isNaN = true →
      t.mul m a b = { bits := t.canonNaN, flags := flagIf (a.isSNaN || b.isSNaN) flagNV } ∧
        t.div m a b = { bits := t.canonNaN, flags := flagIf (a.isSNaN || b.isSNaN) flagNV }) ∧
    (a.isNaN = true → t.sqrt m a = { bits := t.canonNaN, flags := flagIf a.isSNaN flagNV } ∧
      t.roundNum m a = { bits := t.canonNaN, flags := flagIf a.isSNaN flagNV }) ∧
    t.mul m (.inf na) (.inf nb) = { bits := t.withSign (na != nb) t.infBits, flags := 0#5 } ∧
    t.div m (.inf na) (.inf nb) = { bits := t.canonNaN, flags := flagNV } ∧
    t.mul m (.inf na) (.fin nb mb eb) = (if mb = 0 then { bits := t.canonNaN, flags := flagNV }
      else { bits := t.withSign (na != nb) t.infBits, flags := 0#5 }) ∧
    t.mul m (.fin na ma ea) (.inf nb) = (if ma = 0 then { bits := t.canonNaN, flags := flagNV }
      else { bits := t.withSign (na != nb) t.infBits, flags := 0#5 }) ∧
    (ma = 0 ∨ mb = 0 → t.mul m (.fin na ma ea) (.fin nb mb eb) = { bits := t.withSign (na != nb) 0, flags := 0#5 }) ∧
    t.div m (.inf na) (.fin nb mb eb) = { bits := t.withSign (na != nb) t.infBits, flags := 0#5 } ∧
    t.div m (.fin na ma ea) (.inf nb) = { bits := t.withSign (na != nb) 0, flags := 0#5 } ∧
    (ma = 0 → mb = 0 → t.div m (.fin na ma ea) (.fin nb mb eb) = { bits := t.canonNaN, flags := flagNV }) ∧
    (ma ≠ 0 → mb = 0 →
      t.div m (.fin na ma ea) (.fin nb mb eb) = { bits := t.withSign (na != nb) t.infBits, flags := flagDZ }) ∧
    (ma = 0 → mb ≠ 0 → t.div m (.fin na ma ea) (.fin nb mb eb) = { bits := t.withSign (na != nb) 0, flags := 0#5 }) ∧
    t.sqrt m (.inf false) = { bits := t.infBits, flags := 0#5 } ∧
    t.sqrt m (.inf true) = { bits := t.canonNaN, flags := flagNV } ∧
    t.sqrt m (.fin na 0 ea) = { bits := t.withSign na 0, flags := 0#5 } ∧
    (ma ≠ 0 → t.sqrt m (.fin true ma ea) = { bits := t.canonNaN, flags := flagNV }) ∧
    t.roundNum m (.inf na) = { bits := t.withSign na t.infBits, flags := 0#5 } ∧
    t.roundNum m (.fin na 0 ea) = { bits := t.withSign na 0, flags := 0#5 } ∧
    t.ofInt m 0 = { bits := 0, flags := 0#5 }

/-- FMIN and FMAX complete with the smaller and the larger operand. −0 is less than +0; one NaN operand gives the other
operand, two the canonical NaN; NV for a signaling NaN, and no other flag. The order of two numbers is that of their
real values. (47_f.md R805, R810, R834, R835; 48_d.md R915, R916.) -/
def Obligations.MinMaxResults : Prop :=
  ∀ (s : State) (rd rs1 rs2 : FReg) (t : Fmt) (box : Nat → BitVec 64) (a b : Nat) (iMin iMax : Instr),
    (t = .single ∧ a = (s.readS rs1).toNat ∧ b = (s.readS rs2).toNat ∧ box = (fun n => boxS (BitVec.ofNat 32 n)) ∧
        iMin = .fminS rd rs1 rs2 ∧ iMax = .fmaxS rd rs1 rs2 ∨
      t = .double ∧ a = (s.readF rs1).toNat ∧ b = (s.readF rs2).toNat ∧ box = BitVec.ofNat 64 ∧
        iMin = .fminD rd rs1 rs2 ∧ iMax = .fmaxD rd rs1 rs2) →
    let fl := flagIf ((t.value a).isSNaN || (t.value b).isSNaN) flagNV
    let both := fun n : Nat => YieldsF iMin s rd (box n) fl 4 ∧ YieldsF iMax s rd (box n) fl 4
    ((t.value a).isNaN = true → (t.value b).isNaN = true → both t.canonNaN) ∧
    ((t.value a).isNaN = true → (t.value b).isNaN = false → both b) ∧
    ((t.value a).isNaN = false → (t.value b).isNaN = true → both a) ∧
    (∀ x y : EReal, (t.value a).Extended x → (t.value b).Extended y →
      (x < y ∨ x = y ∧ a.testBit t.signBit = true → YieldsF iMin s rd (box a) fl 4 ∧ YieldsF iMax s rd (box b) fl 4) ∧
      (y < x ∨ x = y ∧ b.testBit t.signBit = true → YieldsF iMin s rd (box b) fl 4 ∧ YieldsF iMax s rd (box a) fl 4) ∧
      (x = y → a.testBit t.signBit = false → b.testBit t.signBit = false → a = b ∧ both a))

/-- FEQ, FLT and FLE complete with the relation of the operands' values. −0 and +0 compare equal. A NaN operand gives 0,
with NV for FLT and FLE, and for FEQ when it is signaling. (R811.) -/
def Obligations.CompareResults : Prop :=
  ∀ (s : State) (rd : Reg) (rs1 rs2 : FReg),
    Compares (.feqS rd rs1 rs2) s rd (s.valS rs1) (s.valS rs2) (· = ·)
      (flagIf ((s.valS rs1).isSNaN || (s.valS rs2).isSNaN) flagNV) ∧
    Compares (.fltS rd rs1 rs2) s rd (s.valS rs1) (s.valS rs2) (· < ·) flagNV ∧
    Compares (.fleS rd rs1 rs2) s rd (s.valS rs1) (s.valS rs2) (· ≤ ·) flagNV ∧
    Compares (.feqD rd rs1 rs2) s rd (s.valD rs1) (s.valD rs2) (· = ·)
      (flagIf ((s.valD rs1).isSNaN || (s.valD rs2).isSNaN) flagNV) ∧
    Compares (.fltD rd rs1 rs2) s rd (s.valD rs1) (s.valD rs2) (· < ·) flagNV ∧
    Compares (.fleD rd rs1 rs2) s rd (s.valD rs1) (s.valD rs2) (· ≤ ·) flagNV

/-- FCLASS completes with exactly the bit of its operand's class set, and no flag. The class is read off the sign,
exponent and fraction fields, for both precisions. (R812.) -/
def Obligations.ClassResults : Prop :=
  ∀ (s : State) (rd : Reg) (rs1 : FReg) (i : Instr) (bits p w : Nat),
    (i = .fclassS rd rs1 ∧ bits = (s.readS rs1).toNat ∧ p = 23 ∧ w = 8 ∨
      i = .fclassD rd rs1 ∧ bits = (s.readF rs1).toNat ∧ p = 52 ∧ w = 11) →
    let neg := bits.testBit (p + w)
    let e := bits / 2 ^ p % 2 ^ w
    let frac := bits % 2 ^ p
    YieldsX i s rd (2 ^ (
      if e = 2 ^ w - 1 then
        if frac = 0 then (if neg then 0 else 7) else if frac.testBit (p - 1) then 9 else 8
      else if e = 0 then
        if frac = 0 then (if neg then 3 else 4) else if neg then 2 else 5
      else if neg then 1 else 6)) 4

/-- The sign injections complete with the first operand's bits under the sign the rule gives. NaNs pass through
unchanged and no flag is raised. (47_f.md R817, R831 to R833; 48_d.md R912 to R914.) -/
def Obligations.SignInjectionResults : Prop :=
  ∀ (s : State) (rd rs1 rs2 : FReg),
    let a := s.readS rs1
    let b := s.readS rs2
    let single := fun sign : Bool => boxS (BitVec.ofNat 32 (a.toNat % 2 ^ 31 + if sign then 2 ^ 31 else 0))
    let c := s.readF rs1
    let d := s.readF rs2
    let double := fun sign : Bool => BitVec.ofNat 64 (c.toNat % 2 ^ 63 + if sign then 2 ^ 63 else 0)
    YieldsF (.fsgnjS rd rs1 rs2) s rd (single b.msb) 0#5 4 ∧
    YieldsF (.fsgnjnS rd rs1 rs2) s rd (single !b.msb) 0#5 4 ∧
    YieldsF (.fsgnjxS rd rs1 rs2) s rd (single (a.msb != b.msb)) 0#5 4 ∧
    YieldsF (.fsgnjD rd rs1 rs2) s rd (double d.msb) 0#5 4 ∧
    YieldsF (.fsgnjnD rd rs1 rs2) s rd (double !d.msb) 0#5 4 ∧
    YieldsF (.fsgnjxD rd rs1 rs2) s rd (double (c.msb != d.msb)) 0#5 4

/-- The moves between register files complete with the bits moved. FMV.X.W makes no boxing test and sign-extends;
FMV.W.X boxes; the D moves exist when XLEN is 64 and move all 64 bits. (R816.) -/
def Obligations.MoveResults : Prop :=
  ∀ (s : State) (rx : Reg) (rf : FReg),
    YieldsX (.fmvXW rx rf) s rx (sext32Int ((s.readF rf).toNat : Int)) 4 ∧
    YieldsF (.fmvWX rf rx) s rf (BitVec.ofNat 64 (0xFFFFFFFF00000000 + s.N rx % 2 ^ 32)) 0#5 4 ∧
    (s.cfg.xlen = .rv64 →
      YieldsX (.fmvXD rx rf) s rx ((s.readF rf).toNat : Int) 4 ∧
      YieldsF (.fmvDX rf rx) s rf (BitVec.ofNat 64 (s.N rx)) 0#5 4)

/-- The eight conversions to integer complete with the rounded value, saturated out of range. NV and the saturation
value for a NaN, an infinity or a value out of range; else NX when inexact. The W and WU results are sign-extended
from 32 bits. (47_f.md R803, R813, R836, R837, R846, R847; 48_d.md R923, R924, R927, R928.) -/
def Obligations.ToIntegerResults : Prop :=
  ∀ (s : State) (rd : Reg) (rs1 : FReg) (rm : BitVec 3) (m : RoundingMode), s.roundingMode rm = some m →
    ConvertsToInt (.fcvtWS rd rs1 rm) s rd (s.valS rs1) m (-(2 ^ 31)) (2 ^ 31 - 1) sext32Int ∧
    ConvertsToInt (.fcvtWuS rd rs1 rm) s rd (s.valS rs1) m 0 (2 ^ 32 - 1) sext32Int ∧
    ConvertsToInt (.fcvtWD rd rs1 rm) s rd (s.valD rs1) m (-(2 ^ 31)) (2 ^ 31 - 1) sext32Int ∧
    ConvertsToInt (.fcvtWuD rd rs1 rm) s rd (s.valD rs1) m 0 (2 ^ 32 - 1) sext32Int ∧
    (s.cfg.xlen = .rv64 →
      ConvertsToInt (.fcvtLS rd rs1 rm) s rd (s.valS rs1) m (-(2 ^ 63)) (2 ^ 63 - 1) id ∧
      ConvertsToInt (.fcvtLuS rd rs1 rm) s rd (s.valS rs1) m 0 (2 ^ 64 - 1) id ∧
      ConvertsToInt (.fcvtLD rd rs1 rm) s rd (s.valD rs1) m (-(2 ^ 63)) (2 ^ 63 - 1) id ∧
      ConvertsToInt (.fcvtLuD rd rs1 rm) s rd (s.valD rs1) m 0 (2 ^ 64 - 1) id)

/-- The conversions from integer and between the precisions complete with the rounded value. The W and WU forms read the
low 32 bits of the register. What ofInt and roundNum compute is the matter of OperationsRoundOnce and
SpecialProducts. (47_f.md R803, R814, R843, R844, R848, R849; 48_d.md R917, R918, R925, R926, R930, R931.) -/
def Obligations.FromIntegerResults : Prop :=
  ∀ (s : State) (rd rs : FReg) (rs1 : Reg) (rm : BitVec 3) (m : RoundingMode), s.roundingMode rm = some m →
    let single := fun (i : Instr) (r : FRes) => YieldsF i s rd (boxS (BitVec.ofNat 32 r.bits)) r.flags 4
    let double := fun (i : Instr) (r : FRes) => YieldsF i s rd (BitVec.ofNat 64 r.bits) r.flags 4
    single (.fcvtSW rd rs1 rm) (Fmt.single.ofInt m (s.S32 rs1)) ∧
    single (.fcvtSWu rd rs1 rm) (Fmt.single.ofInt m (s.U32 rs1)) ∧
    double (.fcvtDW rd rs1 rm) (Fmt.double.ofInt m (s.S32 rs1)) ∧
    double (.fcvtDWu rd rs1 rm) (Fmt.double.ofInt m (s.U32 rs1)) ∧
    single (.fcvtSD rd rs rm) (Fmt.single.roundNum m (s.valD rs)) ∧
    double (.fcvtDS rd rs rm) (Fmt.double.roundNum m (s.valS rs)) ∧
    (s.cfg.xlen = .rv64 →
      single (.fcvtSL rd rs1 rm) (Fmt.single.ofInt m (s.S rs1)) ∧
      single (.fcvtSLu rd rs1 rm) (Fmt.single.ofInt m (s.U rs1)) ∧
      double (.fcvtDL rd rs1 rm) (Fmt.double.ofInt m (s.S rs1)) ∧
      double (.fcvtDLu rd rs1 rm) (Fmt.double.ofInt m (s.U rs1)))

/-- The compressed computational forms complete with their results and advance pc by 2. C.ADDI4SPN, C.NOP, C.ADDI,
C.ADDIW, C.LI, C.ADDI16SP, C.LUI, C.SRLI, C.SRAI, C.ANDI and C.SLLI; C.ADDIW exists when XLEN is 64. C.SUB, C.XOR,
C.OR, C.AND, C.SUBW, C.ADDW, C.MV and C.ADD; the W forms exist when XLEN is 64. (49_c.md R1001 to R1003, R1012,
R1013, R1015 to R1021, R1031, R1001, R1022 to R1027, R1037, R1040.) -/
def Obligations.CompressedAluResults : Prop :=
  (∀ (s : State) (rdc : CReg) (rd : Reg) (nz : BitVec 8) (imm : BitVec 6),
     YieldsX (.cAddi4spn rdc nz) s (prime rdc) (s.U 2#5 + nz.toNat * 4) 2 ∧
     YieldsX (.cNop imm) s 0#5 0 2 ∧
     YieldsX (.cAddi rd imm) s rd (s.U rd + imm.toInt) 2 ∧
     (s.cfg.xlen = .rv64 → YieldsX (.cAddiw rd imm) s rd (sext32Int (s.U rd + imm.toInt)) 2) ∧
     YieldsX (.cLi rd imm) s rd imm.toInt 2 ∧
     YieldsX (.cAddi16sp imm) s 2#5 (s.U 2#5 + imm.toInt * 16) 2 ∧
     YieldsX (.cLui rd imm) s rd (imm.toInt * 4096) 2 ∧
     YieldsX (.cAndi rdc imm) s (prime rdc) ((s.N (prime rdc) &&& s.immN imm : Nat) : Int) 2 ∧
     (s.cfg.xlen.shamtOk imm = true →
       YieldsX (.cSrli rdc imm) s (prime rdc) (s.U (prime rdc) / 2 ^ imm.toNat) 2 ∧
       YieldsX (.cSrai rdc imm) s (prime rdc) (s.S (prime rdc) / 2 ^ imm.toNat) 2 ∧
       YieldsX (.cSlli rd imm) s rd (s.U rd * 2 ^ imm.toNat) 2)) ∧
  (∀ (s : State) (rdc rs2c : CReg) (rd rs2 : Reg),
     YieldsX (.cSub rdc rs2c) s (prime rdc) (s.U (prime rdc) - s.U (prime rs2c)) 2 ∧
     YieldsX (.cXor rdc rs2c) s (prime rdc) ((s.N (prime rdc) ^^^ s.N (prime rs2c) : Nat) : Int) 2 ∧
     YieldsX (.cOr rdc rs2c) s (prime rdc) ((s.N (prime rdc) ||| s.N (prime rs2c) : Nat) : Int) 2 ∧
     YieldsX (.cAnd rdc rs2c) s (prime rdc) ((s.N (prime rdc) &&& s.N (prime rs2c) : Nat) : Int) 2 ∧
     YieldsX (.cMv rd rs2) s rd (s.U rs2) 2 ∧
     YieldsX (.cAdd rd rs2) s rd (s.U rd + s.U rs2) 2 ∧
     (s.cfg.xlen = .rv64 →
       YieldsX (.cSubw rdc rs2c) s (prime rdc) (sext32Int (s.U (prime rdc) - s.U (prime rs2c))) 2 ∧
       YieldsX (.cAddw rdc rs2c) s (prime rdc) (sext32Int (s.U (prime rdc) + s.U (prime rs2c))) 2))

/-- C.J, C.JAL, C.JR, C.JALR, C.BEQZ and C.BNEZ complete. The link is pc + 2, in x1; a branch not taken advances pc by
2. C.JAL exists when XLEN is 32. (49_c.md R1014, R1028 to R1030, R1036, R1039; 42_control.md R500.) -/
def Obligations.CompressedTransferResults : Prop :=
  ∀ (s : State) (rs1 : Reg) (rs1c : CReg) (off : BitVec 11) (boff : BitVec 8),
    Jumps (.cJ off) s 0#5 0 (s.fromPc (off.toInt * 2)) ∧
    (s.cfg.xlen = .rv32 → Jumps (.cJal off) s 1#5 ((s.readPc.toNat : Int) + 2) (s.fromPc (off.toInt * 2))) ∧
    Jumps (.cJr rs1) s 0#5 0 (s.fromReg rs1 0) ∧
    Jumps (.cJalr rs1) s 1#5 ((s.readPc.toNat : Int) + 2) (s.fromReg rs1 0) ∧
    Branches (.cBeqz rs1c boff) s (s.U (prime rs1c) = 0) (s.fromPc (boff.toInt * 2)) 2 ∧
    Branches (.cBnez rs1c boff) s (s.U (prime rs1c) ≠ 0) (s.fromPc (boff.toInt * 2)) 2

/-- The compressed loads complete or trap, with unsigned scaled offsets. C.LW, C.LD, C.LWSP, C.LDSP, C.FLW, C.FLD,
C.FLWSP and C.FLDSP, each at the XLEN that has it; the stack forms use x2. The address is the sum of the register
and the offset modulo 2^XLEN. (49_c.md R1002, R1004 to R1007, R1032 to R1035; 43_loadstore.md R550; 47_f.md R815;
20_memory.md R157.) -/
def Obligations.CompressedLoadResults : Prop :=
  ∀ (s : State) (rdc rs1c : CReg) (rd : Reg) (fd : FReg) (u5 : BitVec 5) (u6 : BitVec 6),
    let word := fun a : Word => (s.bytesAt a.toNat 4 : Int).bmod (2 ^ 32)
    let single := fun a : Word => BitVec.ofNat 64 (0xFFFFFFFF00000000 + s.bytesAt a.toNat 4)
    let double := fun a : Word => BitVec.ofNat 64 (s.bytesAt a.toNat 8)
    let w := s.addressC (prime rs1c) (u5.toNat * 4)
    let d := s.addressC (prime rs1c) (u5.toNat * 8)
    let wsp := s.addressC 2#5 (u6.toNat * 4)
    let dsp := s.addressC 2#5 (u6.toNat * 8)
    (∀ (r : Reg) (n : Nat), (s.addressC r n).toNat = (s.N r + n) % s.size) ∧
    LoadsX (.cLw rdc rs1c u5) s (prime rdc) w 4 (word w) 2 ∧
    LoadsX (.cLwsp rd u6) s rd wsp 4 (word wsp) 2 ∧
    LoadsF (.cFld rdc rs1c u5) s (prime rdc) d 8 (double d) 2 ∧
    LoadsF (.cFldsp fd u6) s fd dsp 8 (double dsp) 2 ∧
    (s.cfg.xlen = .rv64 →
      LoadsX (.cLd rdc rs1c u5) s (prime rdc) d 8 (s.bytesAt d.toNat 8 : Int) 2 ∧
      LoadsX (.cLdsp rd u6) s rd dsp 8 (s.bytesAt dsp.toNat 8 : Int) 2) ∧
    (s.cfg.xlen = .rv32 →
      LoadsF (.cFlw rdc rs1c u5) s (prime rdc) w 4 (single w) 2 ∧
      LoadsF (.cFlwsp fd u6) s fd wsp 4 (single wsp) 2)

/-- The compressed stores complete or trap, with unsigned scaled offsets. C.SW, C.SD, C.SWSP, C.SDSP, C.FSW, C.FSD,
C.FSWSP and C.FSDSP, each at the XLEN that has it; the stack forms use x2. The address is the sum of the register
and the offset modulo 2^XLEN. A refused store writes nothing, but for the first page of a split store: that it is
all or nothing, by a free choice, is the model's reading (log entry 10); a memory that checks every byte first
writes nothing. (49_c.md R1002, R1008 to R1011, R1041 to R1044; 43_loadstore.md R550; 47_f.md R815; 20_memory.md
R157, R162, R195.) -/
def Obligations.CompressedStoreResults : Prop :=
  ∀ (s : State) (rs1c rs2c : CReg) (rs2 : Reg) (fs2 : FReg) (u5 : BitVec 5) (u6 : BitVec 6),
    let w := s.addressC (prime rs1c) (u5.toNat * 4)
    let d := s.addressC (prime rs1c) (u5.toNat * 8)
    let wsp := s.addressC 2#5 (u6.toNat * 4)
    let dsp := s.addressC 2#5 (u6.toNat * 8)
    (∀ (r : Reg) (n : Nat), (s.addressC r n).toNat = (s.N r + n) % s.size) ∧
    Stores (.cSw rs1c rs2c u5) s w 4 (s.N (prime rs2c)) 2 ∧
    Stores (.cSwsp rs2 u6) s wsp 4 (s.N rs2) 2 ∧
    Stores (.cFsd rs1c rs2c u5) s d 8 (s.readF (prime rs2c)).toNat 2 ∧
    Stores (.cFsdsp fs2 u6) s dsp 8 (s.readF fs2).toNat 2 ∧
    (s.cfg.xlen = .rv64 →
      Stores (.cSd rs1c rs2c u5) s d 8 (s.N (prime rs2c)) 2 ∧
      Stores (.cSdsp rs2 u6) s dsp 8 (s.N rs2) 2) ∧
    (s.cfg.xlen = .rv32 →
      Stores (.cFsw rs1c rs2c u5) s w 4 (s.readF (prime rs2c)).toNat 2 ∧
      Stores (.cFswsp fs2 u6) s wsp 4 (s.readF fs2).toNat 2)

/-- A compressed instruction does what its 32-bit expansion does, with length 2. For every compressed instruction but
the transfers, whose statement is CompressedTransferResults, and C.EBREAK, whose trap records its own bits: where
the expansion completes, the state is the expansion's but for the sequential pc; where it traps, the same.
(40_cycle.md R370; 49_c.md R1000; 30_encoding.md R321.) -/
def Obligations.CompressedRefinesExpansion : Prop :=
  ∀ (i : Instr) (s : State), (encode i).len = 2 → i.transfers = false → i.callsHost = false → s.run = .running →
    (encode i.expand).len = 4 ∧ ∃ t u, exec i s = .next t ∧ exec i.expand s = .next u ∧
      (u.run = .running → t = { u with pc := s.cfg.xlen.narrow (s.pc + 2) }) ∧ (u.run ≠ .running → t = u)

/-- What reset leaves in the block, and what the model keeps beside it. The values of the block's state are the spec's
table. That memory, handlers and configuration are kept is the model's choice (log entry 30): they are not block
state, and R1203 leaves what happens to them to the host and the memory argument. The last clause says that
State.reset, whose configuration, memory, handlers and budget the model chooses (log entries 2 and 3), is such a
state. (10_state.md R95; 70_reset_and_hazards.md R1200.) -/
def Obligations.ResetValues : Prop :=
  ∀ (s : State),
    let t := s.resetBlock
    (∀ r, t.readX r = 0#64) ∧ (∀ r, t.readF r = 0#64) ∧ t.fcsr = 0#8 ∧ t.pc = 0#64 ∧ t.instret = 0#64 ∧
      t.stopped = false ∧ t.reservation = none ∧ t.mem = s.mem ∧ t.syscalls = s.syscalls ∧
      t.debugHandler = s.debugHandler ∧ t.cfg = s.cfg ∧ State.reset.resetBlock = State.reset
end

