-- ==== Sys2Proof/Laws/Memory.lean ====
section
/-! SUPPORT. Memory: a byte reads back as it was written, a write leaves every other byte alone, and every operation
keeps the canonical form. -/

namespace Sys2Proof.Machine

/-! ### Lists with rising keys -/

section Assoc

variable {α : Type}

/-- The keys of a list rise strictly. -/
abbrev Rising (l : List (Nat × α)) : Prop := l.Pairwise fun a b => a.1 < b.1

theorem assocGet_insert_self (l : List (Nat × α)) (k : Nat) (v : α) : assocGet (assocInsert l k v) k = some v := by
  induction l with
  | nil => simp [assocInsert, assocGet]
  | cons e rest ih =>
    unfold assocInsert
    split
    · simp [assocGet]
    · split
      · simp [assocGet]
      · next h => simp [assocGet, ih, Ne.symm h]

theorem assocGet_insert_ne (l : List (Nat × α)) {k j : Nat} (v : α) (h : j ≠ k) :
    assocGet (assocInsert l k v) j = assocGet l j := by
  induction l with
  | nil => simp [assocInsert, assocGet, Ne.symm h]
  | cons e rest ih =>
    unfold assocInsert
    split
    · simp [assocGet, Ne.symm h]
    · split
      · next he => simp [assocGet, ← he, Ne.symm h]
      · simp [assocGet, ih]

theorem assocGet_erase_self (l : List (Nat × α)) (k : Nat) : assocGet (assocErase l k) k = none := by
  induction l with
  | nil => rfl
  | cons e rest ih =>
    by_cases h : e.1 = k
    · simpa [assocErase, h] using ih
    · simpa [assocErase, h, assocGet] using ih

theorem assocGet_erase_ne (l : List (Nat × α)) {k j : Nat} (h : j ≠ k) :
    assocGet (assocErase l k) j = assocGet l j := by
  induction l with
  | nil => rfl
  | cons e rest ih =>
    by_cases he : e.1 = k
    · have hj : e.1 ≠ j := fun hh => h (hh ▸ he)
      simpa [assocErase, he, assocGet, Ne.symm h] using ih
    · simpa [assocErase, he, assocGet] using congrArg _ ih

theorem mem_assocInsert {l : List (Nat × α)} {k : Nat} {v : α} {e : Nat × α} (h : e ∈ assocInsert l k v) :
    e = (k, v) ∨ e ∈ l := by
  induction l with
  | nil => simpa [assocInsert] using h
  | cons d rest ih =>
    unfold assocInsert at h
    split at h
    · simpa using h
    · split at h
      · rcases List.mem_cons.1 h with h | h
        · exact .inl h
        · exact .inr (List.mem_cons_of_mem _ h)
      · rcases List.mem_cons.1 h with h | h
        · exact .inr (by simp [h])
        · exact (ih h).imp id (List.mem_cons_of_mem _)

theorem rising_insert {l : List (Nat × α)} (h : Rising l) (k : Nat) (v : α) : Rising (assocInsert l k v) := by
  induction l with
  | nil => simp [assocInsert]
  | cons e rest ih =>
    have he := List.pairwise_cons.1 h
    unfold assocInsert
    split
    · next hk =>
      refine List.pairwise_cons.2 ⟨fun d hd => ?_, h⟩
      rcases List.mem_cons.1 hd with rfl | hd
      · exact hk
      · exact Nat.lt_trans hk (he.1 d hd)
    · split
      · next hk => exact List.pairwise_cons.2 ⟨fun d hd => hk ▸ he.1 d hd, he.2⟩
      · refine List.pairwise_cons.2 ⟨fun d hd => ?_, ih he.2⟩
        rcases mem_assocInsert hd with rfl | hd
        · exact Nat.lt_of_le_of_ne (by omega) (by omega)
        · exact he.1 d hd

theorem rising_filter {l : List (Nat × α)} (h : Rising l) (p : Nat × α → Bool) : Rising (l.filter p) := h.filter p

end Assoc

/-! ### Bytes -/

@[simp] theorem Memory.setByte_cap (m : Memory) (b : Nat) (v : Byte) : (m.setByte b v).cap = m.cap := rfl
@[simp] theorem Memory.setByte_pages (m : Memory) (b : Nat) (v : Byte) : (m.setByte b v).pages = m.pages := rfl
@[simp] theorem Memory.setByte_unmapped (m : Memory) (b : Nat) (v : Byte) : (m.setByte b v).unmapped = m.unmapped := rfl
@[simp] theorem Memory.setByte_checkFirst (m : Memory) (b : Nat) (v : Byte) :
    (m.setByte b v).checkFirst = m.checkFirst := rfl

theorem Memory.byte_setByte_same (m : Memory) (b : Nat) (v : Byte) : (m.setByte b v).byte b = v := by
  unfold Memory.setByte Memory.byte
  split
  · next h => simp [assocGet_erase_self, h]
  · simp [assocGet_insert_self]

theorem Memory.byte_setByte_ne (m : Memory) {b c : Nat} (v : Byte) (h : c ≠ b) : (m.setByte b v).byte c = m.byte c := by
  unfold Memory.setByte Memory.byte
  split
  · simp [assocGet_erase_ne _ h]
  · simp [assocGet_insert_ne _ _ h]

theorem Memory.wf_setByte {m : Memory} (h : m.wf) (b : Nat) (v : Byte) : (m.setByte b v).wf := by
  obtain ⟨hc, hp, hz⟩ := h
  unfold Memory.setByte Memory.wf
  split
  · exact ⟨rising_filter hc _, hp, fun c hm => hz c (List.mem_of_mem_filter hm)⟩
  · next hv =>
    refine ⟨rising_insert hc b v, hp, fun c hm => ?_⟩
    rcases mem_assocInsert hm with rfl | hm
    · exact hv
    · exact hz c hm

/-- A byte write adds no cell but its own. -/
theorem Memory.cells_setByte {m : Memory} {b : Nat} {v : Byte} {c : Host.Cell} (h : c ∈ (m.setByte b v).cells) :
    c.1 = b ∨ c ∈ m.cells := by
  unfold Memory.setByte at h
  split at h
  · exact .inr (List.mem_of_mem_filter h)
  · exact (mem_assocInsert h).imp (fun h => by simp [h]) id

/-! ### Lists of byte writes -/

@[simp] theorem Memory.writeAll_cap (m : Memory) (ws : List Host.Cell) : (m.writeAll ws).cap = m.cap := by
  unfold Memory.writeAll
  induction ws generalizing m with
  | nil => rfl
  | cons w ws ih => simpa using ih (m.setByte w.1 w.2)

@[simp] theorem Memory.writeAll_pages (m : Memory) (ws : List Host.Cell) : (m.writeAll ws).pages = m.pages := by
  unfold Memory.writeAll
  induction ws generalizing m with
  | nil => rfl
  | cons w ws ih => simpa using ih (m.setByte w.1 w.2)

@[simp] theorem Memory.writeAll_unmapped (m : Memory) (ws : List Host.Cell) : (m.writeAll ws).unmapped = m.unmapped := by
  unfold Memory.writeAll
  induction ws generalizing m with
  | nil => rfl
  | cons w ws ih => simpa using ih (m.setByte w.1 w.2)

@[simp] theorem Memory.writeAll_checkFirst (m : Memory) (ws : List Host.Cell) :
    (m.writeAll ws).checkFirst = m.checkFirst := by
  unfold Memory.writeAll
  induction ws generalizing m with
  | nil => rfl
  | cons w ws ih => simpa using ih (m.setByte w.1 w.2)

theorem Memory.wf_writeAll {m : Memory} (h : m.wf) (ws : List Host.Cell) : (m.writeAll ws).wf := by
  unfold Memory.writeAll
  induction ws generalizing m with
  | nil => exact h
  | cons w ws ih => exact ih (wf_setByte h w.1 w.2)

theorem Memory.byte_writeAll_of_notMem (m : Memory) {ws : List Host.Cell} {b : Nat} (h : ∀ w ∈ ws, w.1 ≠ b) :
    (m.writeAll ws).byte b = m.byte b := by
  unfold Memory.writeAll
  induction ws generalizing m with
  | nil => rfl
  | cons w ws ih =>
    have hw := h w (by simp)
    rw [List.foldl_cons, ih _ fun w' hw' => h w' (List.mem_cons_of_mem _ hw'), byte_setByte_ne _ _ (Ne.symm hw)]

/-- A byte written once, and not after, reads as written. -/
theorem Memory.byte_writeAll_of_mem (m : Memory) {ws : List Host.Cell} {w : Host.Cell} (hw : w ∈ ws)
    (hn : (ws.map (·.1)).Nodup) : (m.writeAll ws).byte w.1 = w.2 := by
  induction ws generalizing m with
  | nil => simp at hw
  | cons d ws ih =>
    have hd := List.nodup_cons.1 hn
    rcases List.mem_cons.1 hw with rfl | hw
    · have : ∀ w' ∈ ws, w'.1 ≠ w.1 := fun w' hw' he => hd.1 (List.mem_map.2 ⟨w', hw', he⟩)
      exact (byte_writeAll_of_notMem _ this).trans (byte_setByte_same m w.1 w.2)
    · exact ih (m.setByte d.1 d.2) hw hd.2

/-- A list of writes adds no cell but at an address written. -/
theorem Memory.cells_writeAll {m : Memory} {ws : List Host.Cell} {c : Host.Cell} (h : c ∈ (m.writeAll ws).cells) :
    (∃ w ∈ ws, c.1 = w.1) ∨ c ∈ m.cells := by
  induction ws generalizing m with
  | nil => exact .inr h
  | cons w ws ih =>
    rcases ih (m := m.setByte w.1 w.2) h with ⟨w', hw', he⟩ | h
    · exact .inl ⟨w', List.mem_cons_of_mem _ hw', he⟩
    · rcases cells_setByte h with he | h
      · exact .inl ⟨w, by simp, he⟩
      · exact .inr h

/-! ### Pages -/

theorem Memory.wf_dropPage {m : Memory} (h : m.wf) (p : Nat) : (m.dropPage p).wf :=
  ⟨rising_filter h.1 _, h.2.1, fun c hc => h.2.2 c (List.mem_of_mem_filter hc)⟩

theorem Memory.wf_setAttr {m : Memory} (h : m.wf) (p : Nat) (a : PageAttr) : (m.setAttr p a).wf := by
  unfold Memory.setAttr
  split
  · have h' := wf_dropPage h p
    exact ⟨h'.1, rising_insert h'.2.1 p a, h'.2.2⟩
  · exact ⟨h.1, rising_insert h.2.1 p a, h.2.2⟩

theorem Memory.wf_freePage {m : Memory} (h : m.wf) (p : Nat) : (m.freePage p).wf := by
  have h' := wf_dropPage h p
  exact ⟨h'.1, rising_filter h'.2.1 _, h'.2.2⟩

theorem Memory.wf_allowFetch {m : Memory} (h : m.wf) (b : Nat) : (m.allowFetch b).wf :=
  ⟨h.1, rising_insert h.2.1 _ _, h.2.2⟩

theorem Memory.wf_placeCode {m : Memory} (h : m.wf) (xl : Xlen) (a : Word) (bs : List Byte) :
    (m.placeCode xl a bs).wf := by
  apply wf_writeAll
  generalize (span xl a bs.length).zip bs = cells
  induction cells generalizing m with
  | nil => exact h
  | cons c cells ih => exact ih (wf_allowFetch h c.1)

/-! ### The operations of a state -/

theorem State.wf_storeValue {s : State} (h : s.mem.wf) (a : Word) (n : Nat) (v : Word) : (s.storeValue a n v).mem.wf :=
  Memory.wf_writeAll h _

theorem State.wf_refusedStore {s : State} (h : s.mem.wf) (a : Word) (n : Nat) (v : Word) :
    (s.refusedStore a n v).mem.wf := by
  unfold State.refusedStore
  split
  · dsimp only
    split
    · exact Memory.wf_writeAll h _
    · exact h
  · exact h

theorem State.wf_copyToGuest {s : State} (h : s.mem.wf) (a : Word) (bytes : List Byte) :
    (s.copyToGuest a bytes).mem.wf := by
  unfold State.copyToGuest
  split
  · exact h
  · exact Memory.wf_writeAll h _

theorem HostAction.wf_apply {s : State} (h : s.mem.wf) (a : HostAction) : (a.apply s).mem.wf := by
  cases a with
  | setX r v =>
    show (s.writeX r v).mem.wf
    unfold State.writeX
    split <;> exact h
  | copyToGuest a bytes => exact State.wf_copyToGuest h a bytes
  | setPageAttr p attr => exact Memory.wf_setAttr h p attr
  | freePage p => exact Memory.wf_freePage h p
  | setSyscall n installed =>
    show (s.setHandler n installed).mem.wf
    unfold State.setHandler
    split <;> exact h
  | setF r v => exact h
  | setFcsr v => exact h
  | setPc v => exact h
  | stop => exact h
  | setDebug installed => exact h

theorem State.wf_hostActs {s : State} (h : s.mem.wf) (acts : List HostAction) : (s.hostActs acts).mem.wf := by
  unfold State.hostActs
  induction acts generalizing s with
  | nil => exact h
  | cons a acts ih => exact ih (HostAction.wf_apply h a)

theorem State.wf_placeWord {s : State} (h : s.mem.wf) (nbits w : Nat) : (s.placeWord nbits w).mem.wf :=
  Memory.wf_placeCode h _ _ _

theorem State.wf_reset : State.reset.mem.wf := by decide

end Sys2Proof.Machine
end

