-- ==== Sys2Proof/Laws/State.lean ====
section
/-! SUPPORT. What each update of the state leaves of each field: one lemma per field per update, so that no later
proof unfolds a record update. -/

namespace Sys2Proof.Machine

variable (s : State)

/-! ### retire -/

@[simp] theorem State.retire_cfg (len : Nat) : (s.retire len).cfg = s.cfg := rfl
@[simp] theorem State.retire_x (len : Nat) : (s.retire len).x = s.x := rfl
@[simp] theorem State.retire_f (len : Nat) : (s.retire len).f = s.f := rfl
@[simp] theorem State.retire_pc (len : Nat) :
    (s.retire len).pc = s.cfg.xlen.narrow (s.pc + BitVec.ofNat 64 len) := rfl
@[simp] theorem State.retire_fcsr (len : Nat) : (s.retire len).fcsr = s.fcsr := rfl
@[simp] theorem State.retire_instret (len : Nat) : (s.retire len).instret = s.instret + 1 := rfl
@[simp] theorem State.retire_stopped (len : Nat) : (s.retire len).stopped = s.stopped := rfl
@[simp] theorem State.retire_reservation (len : Nat) : (s.retire len).reservation = s.reservation := rfl
@[simp] theorem State.retire_mem (len : Nat) : (s.retire len).mem = s.mem := rfl
@[simp] theorem State.retire_budget (len : Nat) : (s.retire len).budget = s.budget := rfl
@[simp] theorem State.retire_syscalls (len : Nat) : (s.retire len).syscalls = s.syscalls := rfl
@[simp] theorem State.retire_debugHandler (len : Nat) : (s.retire len).debugHandler = s.debugHandler := rfl
@[simp] theorem State.retire_run (len : Nat) : (s.retire len).run = s.run := rfl
@[simp] theorem State.retire_draws (len : Nat) : (s.retire len).draws = s.draws := rfl

/-! ### jump -/

@[simp] theorem State.jump_cfg (t : Word) : (s.jump t).cfg = s.cfg := rfl
@[simp] theorem State.jump_x (t : Word) : (s.jump t).x = s.x := rfl
@[simp] theorem State.jump_f (t : Word) : (s.jump t).f = s.f := rfl
@[simp] theorem State.jump_pc (t : Word) : (s.jump t).pc = s.cfg.xlen.narrow t := rfl
@[simp] theorem State.jump_fcsr (t : Word) : (s.jump t).fcsr = s.fcsr := rfl
@[simp] theorem State.jump_instret (t : Word) : (s.jump t).instret = s.instret + 1 := rfl
@[simp] theorem State.jump_stopped (t : Word) : (s.jump t).stopped = s.stopped := rfl
@[simp] theorem State.jump_reservation (t : Word) : (s.jump t).reservation = s.reservation := rfl
@[simp] theorem State.jump_mem (t : Word) : (s.jump t).mem = s.mem := rfl
@[simp] theorem State.jump_budget (t : Word) : (s.jump t).budget = s.budget := rfl
@[simp] theorem State.jump_syscalls (t : Word) : (s.jump t).syscalls = s.syscalls := rfl
@[simp] theorem State.jump_debugHandler (t : Word) : (s.jump t).debugHandler = s.debugHandler := rfl
@[simp] theorem State.jump_run (t : Word) : (s.jump t).run = s.run := rfl
@[simp] theorem State.jump_draws (t : Word) : (s.jump t).draws = s.draws := rfl

/-! ### trap -/

@[simp] theorem State.trap_cfg (k : TrapKind) (v : Word) : (s.trap k v).cfg = s.cfg := rfl
@[simp] theorem State.trap_x (k : TrapKind) (v : Word) : (s.trap k v).x = s.x := rfl
@[simp] theorem State.trap_f (k : TrapKind) (v : Word) : (s.trap k v).f = s.f := rfl
@[simp] theorem State.trap_pc (k : TrapKind) (v : Word) : (s.trap k v).pc = s.pc := rfl
@[simp] theorem State.trap_fcsr (k : TrapKind) (v : Word) : (s.trap k v).fcsr = s.fcsr := rfl
@[simp] theorem State.trap_instret (k : TrapKind) (v : Word) : (s.trap k v).instret = s.instret := rfl
@[simp] theorem State.trap_stopped (k : TrapKind) (v : Word) : (s.trap k v).stopped = s.stopped := rfl
@[simp] theorem State.trap_reservation (k : TrapKind) (v : Word) : (s.trap k v).reservation = s.reservation := rfl
@[simp] theorem State.trap_mem (k : TrapKind) (v : Word) : (s.trap k v).mem = s.mem := rfl
@[simp] theorem State.trap_budget (k : TrapKind) (v : Word) : (s.trap k v).budget = s.budget := rfl
@[simp] theorem State.trap_syscalls (k : TrapKind) (v : Word) : (s.trap k v).syscalls = s.syscalls := rfl
@[simp] theorem State.trap_debugHandler (k : TrapKind) (v : Word) :
    (s.trap k v).debugHandler = s.debugHandler := rfl
@[simp] theorem State.trap_run (k : TrapKind) (v : Word) : (s.trap k v).run = .returned (.trap k v) := rfl
@[simp] theorem State.trap_draws (k : TrapKind) (v : Word) : (s.trap k v).draws = s.draws := rfl

/-! ### simulate -/

@[simp] theorem State.simulate_cfg (max : BitVec 64) : (s.simulate max).cfg = s.cfg := rfl
@[simp] theorem State.simulate_x (max : BitVec 64) : (s.simulate max).x = s.x := rfl
@[simp] theorem State.simulate_f (max : BitVec 64) : (s.simulate max).f = s.f := rfl
@[simp] theorem State.simulate_pc (max : BitVec 64) : (s.simulate max).pc = s.pc := rfl
@[simp] theorem State.simulate_fcsr (max : BitVec 64) : (s.simulate max).fcsr = s.fcsr := rfl
@[simp] theorem State.simulate_instret (max : BitVec 64) : (s.simulate max).instret = 0 := rfl
@[simp] theorem State.simulate_stopped (max : BitVec 64) : (s.simulate max).stopped = false := rfl
@[simp] theorem State.simulate_reservation (max : BitVec 64) : (s.simulate max).reservation = s.reservation := rfl
@[simp] theorem State.simulate_mem (max : BitVec 64) : (s.simulate max).mem = s.mem := rfl
@[simp] theorem State.simulate_budget (max : BitVec 64) : (s.simulate max).budget = max := rfl
@[simp] theorem State.simulate_syscalls (max : BitVec 64) : (s.simulate max).syscalls = s.syscalls := rfl
@[simp] theorem State.simulate_debugHandler (max : BitVec 64) :
    (s.simulate max).debugHandler = s.debugHandler := rfl
@[simp] theorem State.simulate_run (max : BitVec 64) : (s.simulate max).run = .running := rfl
@[simp] theorem State.simulate_draws (max : BitVec 64) : (s.simulate max).draws = s.draws := rfl

/-! ### setFlags -/

@[simp] theorem State.setFlags_cfg (fl : FFlags) : (s.setFlags fl).cfg = s.cfg := rfl
@[simp] theorem State.setFlags_x (fl : FFlags) : (s.setFlags fl).x = s.x := rfl
@[simp] theorem State.setFlags_f (fl : FFlags) : (s.setFlags fl).f = s.f := rfl
@[simp] theorem State.setFlags_pc (fl : FFlags) : (s.setFlags fl).pc = s.pc := rfl
@[simp] theorem State.setFlags_fcsr (fl : FFlags) : (s.setFlags fl).fcsr = s.frm ++ (s.fflags ||| fl) := rfl
@[simp] theorem State.setFlags_instret (fl : FFlags) : (s.setFlags fl).instret = s.instret := rfl
@[simp] theorem State.setFlags_stopped (fl : FFlags) : (s.setFlags fl).stopped = s.stopped := rfl
@[simp] theorem State.setFlags_reservation (fl : FFlags) : (s.setFlags fl).reservation = s.reservation := rfl
@[simp] theorem State.setFlags_mem (fl : FFlags) : (s.setFlags fl).mem = s.mem := rfl
@[simp] theorem State.setFlags_budget (fl : FFlags) : (s.setFlags fl).budget = s.budget := rfl
@[simp] theorem State.setFlags_syscalls (fl : FFlags) : (s.setFlags fl).syscalls = s.syscalls := rfl
@[simp] theorem State.setFlags_debugHandler (fl : FFlags) : (s.setFlags fl).debugHandler = s.debugHandler := rfl
@[simp] theorem State.setFlags_run (fl : FFlags) : (s.setFlags fl).run = s.run := rfl
@[simp] theorem State.setFlags_draws (fl : FFlags) : (s.setFlags fl).draws = s.draws := rfl

/-! ### writeF -/

@[simp] theorem State.writeF_cfg (r : FReg) (v : BitVec 64) : (s.writeF r v).cfg = s.cfg := rfl
@[simp] theorem State.writeF_x (r : FReg) (v : BitVec 64) : (s.writeF r v).x = s.x := rfl
@[simp] theorem State.writeF_f (r : FReg) (v : BitVec 64) : (s.writeF r v).f = s.f.set r.toNat v := rfl
@[simp] theorem State.writeF_pc (r : FReg) (v : BitVec 64) : (s.writeF r v).pc = s.pc := rfl
@[simp] theorem State.writeF_fcsr (r : FReg) (v : BitVec 64) : (s.writeF r v).fcsr = s.fcsr := rfl
@[simp] theorem State.writeF_instret (r : FReg) (v : BitVec 64) : (s.writeF r v).instret = s.instret := rfl
@[simp] theorem State.writeF_stopped (r : FReg) (v : BitVec 64) : (s.writeF r v).stopped = s.stopped := rfl
@[simp] theorem State.writeF_reservation (r : FReg) (v : BitVec 64) :
    (s.writeF r v).reservation = s.reservation := rfl
@[simp] theorem State.writeF_mem (r : FReg) (v : BitVec 64) : (s.writeF r v).mem = s.mem := rfl
@[simp] theorem State.writeF_budget (r : FReg) (v : BitVec 64) : (s.writeF r v).budget = s.budget := rfl
@[simp] theorem State.writeF_syscalls (r : FReg) (v : BitVec 64) : (s.writeF r v).syscalls = s.syscalls := rfl
@[simp] theorem State.writeF_debugHandler (r : FReg) (v : BitVec 64) :
    (s.writeF r v).debugHandler = s.debugHandler := rfl
@[simp] theorem State.writeF_run (r : FReg) (v : BitVec 64) : (s.writeF r v).run = s.run := rfl
@[simp] theorem State.writeF_draws (r : FReg) (v : BitVec 64) : (s.writeF r v).draws = s.draws := rfl

/-! ### writeS -/

@[simp] theorem State.writeS_cfg (r : FReg) (v : BitVec 32) : (s.writeS r v).cfg = s.cfg := rfl
@[simp] theorem State.writeS_x (r : FReg) (v : BitVec 32) : (s.writeS r v).x = s.x := rfl
@[simp] theorem State.writeS_f (r : FReg) (v : BitVec 32) : (s.writeS r v).f = s.f.set r.toNat (boxS v) := rfl
@[simp] theorem State.writeS_pc (r : FReg) (v : BitVec 32) : (s.writeS r v).pc = s.pc := rfl
@[simp] theorem State.writeS_fcsr (r : FReg) (v : BitVec 32) : (s.writeS r v).fcsr = s.fcsr := rfl
@[simp] theorem State.writeS_instret (r : FReg) (v : BitVec 32) : (s.writeS r v).instret = s.instret := rfl
@[simp] theorem State.writeS_stopped (r : FReg) (v : BitVec 32) : (s.writeS r v).stopped = s.stopped := rfl
@[simp] theorem State.writeS_reservation (r : FReg) (v : BitVec 32) :
    (s.writeS r v).reservation = s.reservation := rfl
@[simp] theorem State.writeS_mem (r : FReg) (v : BitVec 32) : (s.writeS r v).mem = s.mem := rfl
@[simp] theorem State.writeS_budget (r : FReg) (v : BitVec 32) : (s.writeS r v).budget = s.budget := rfl
@[simp] theorem State.writeS_syscalls (r : FReg) (v : BitVec 32) : (s.writeS r v).syscalls = s.syscalls := rfl
@[simp] theorem State.writeS_debugHandler (r : FReg) (v : BitVec 32) :
    (s.writeS r v).debugHandler = s.debugHandler := rfl
@[simp] theorem State.writeS_run (r : FReg) (v : BitVec 32) : (s.writeS r v).run = s.run := rfl
@[simp] theorem State.writeS_draws (r : FReg) (v : BitVec 32) : (s.writeS r v).draws = s.draws := rfl

/-! ### storeValue -/

@[simp] theorem State.storeValue_cfg (a : Word) (n : Nat) (v : Word) : (s.storeValue a n v).cfg = s.cfg := rfl
@[simp] theorem State.storeValue_x (a : Word) (n : Nat) (v : Word) : (s.storeValue a n v).x = s.x := rfl
@[simp] theorem State.storeValue_f (a : Word) (n : Nat) (v : Word) : (s.storeValue a n v).f = s.f := rfl
@[simp] theorem State.storeValue_pc (a : Word) (n : Nat) (v : Word) : (s.storeValue a n v).pc = s.pc := rfl
@[simp] theorem State.storeValue_fcsr (a : Word) (n : Nat) (v : Word) : (s.storeValue a n v).fcsr = s.fcsr := rfl
@[simp] theorem State.storeValue_instret (a : Word) (n : Nat) (v : Word) :
    (s.storeValue a n v).instret = s.instret := rfl
@[simp] theorem State.storeValue_stopped (a : Word) (n : Nat) (v : Word) :
    (s.storeValue a n v).stopped = s.stopped := rfl
@[simp] theorem State.storeValue_reservation (a : Word) (n : Nat) (v : Word) :
    (s.storeValue a n v).reservation = s.reservation := rfl
@[simp] theorem State.storeValue_mem (a : Word) (n : Nat) (v : Word) :
    (s.storeValue a n v).mem = s.mem.writeAll (storeCells s.cfg.xlen a n v) := rfl
@[simp] theorem State.storeValue_budget (a : Word) (n : Nat) (v : Word) :
    (s.storeValue a n v).budget = s.budget := rfl
@[simp] theorem State.storeValue_syscalls (a : Word) (n : Nat) (v : Word) :
    (s.storeValue a n v).syscalls = s.syscalls := rfl
@[simp] theorem State.storeValue_debugHandler (a : Word) (n : Nat) (v : Word) :
    (s.storeValue a n v).debugHandler = s.debugHandler := rfl
@[simp] theorem State.storeValue_run (a : Word) (n : Nat) (v : Word) : (s.storeValue a n v).run = s.run := rfl
@[simp] theorem State.storeValue_draws (a : Word) (n : Nat) (v : Word) : (s.storeValue a n v).draws = s.draws := rfl

/-! ### requestStop -/

@[simp] theorem State.requestStop_cfg : (s.requestStop).cfg = s.cfg := rfl
@[simp] theorem State.requestStop_x : (s.requestStop).x = s.x := rfl
@[simp] theorem State.requestStop_f : (s.requestStop).f = s.f := rfl
@[simp] theorem State.requestStop_pc : (s.requestStop).pc = s.pc := rfl
@[simp] theorem State.requestStop_fcsr : (s.requestStop).fcsr = s.fcsr := rfl
@[simp] theorem State.requestStop_instret : (s.requestStop).instret = s.instret := rfl
@[simp] theorem State.requestStop_stopped : (s.requestStop).stopped = true := rfl
@[simp] theorem State.requestStop_reservation : (s.requestStop).reservation = s.reservation := rfl
@[simp] theorem State.requestStop_mem : (s.requestStop).mem = s.mem := rfl
@[simp] theorem State.requestStop_budget : (s.requestStop).budget = s.budget := rfl
@[simp] theorem State.requestStop_syscalls : (s.requestStop).syscalls = s.syscalls := rfl
@[simp] theorem State.requestStop_debugHandler : (s.requestStop).debugHandler = s.debugHandler := rfl
@[simp] theorem State.requestStop_run : (s.requestStop).run = s.run := rfl
@[simp] theorem State.requestStop_draws : (s.requestStop).draws = s.draws := rfl

/-! ### writeX -/

@[simp] theorem State.writeX_cfg (r : Reg) (v : Word) : (s.writeX r v).cfg = s.cfg := by
  unfold State.writeX; split <;> rfl
@[simp] theorem State.writeX_f (r : Reg) (v : Word) : (s.writeX r v).f = s.f := by
  unfold State.writeX; split <;> rfl
@[simp] theorem State.writeX_pc (r : Reg) (v : Word) : (s.writeX r v).pc = s.pc := by
  unfold State.writeX; split <;> rfl
@[simp] theorem State.writeX_fcsr (r : Reg) (v : Word) : (s.writeX r v).fcsr = s.fcsr := by
  unfold State.writeX; split <;> rfl
@[simp] theorem State.writeX_instret (r : Reg) (v : Word) : (s.writeX r v).instret = s.instret := by
  unfold State.writeX; split <;> rfl
@[simp] theorem State.writeX_stopped (r : Reg) (v : Word) : (s.writeX r v).stopped = s.stopped := by
  unfold State.writeX; split <;> rfl
@[simp] theorem State.writeX_reservation (r : Reg) (v : Word) : (s.writeX r v).reservation = s.reservation := by
  unfold State.writeX; split <;> rfl
@[simp] theorem State.writeX_mem (r : Reg) (v : Word) : (s.writeX r v).mem = s.mem := by
  unfold State.writeX; split <;> rfl
@[simp] theorem State.writeX_budget (r : Reg) (v : Word) : (s.writeX r v).budget = s.budget := by
  unfold State.writeX; split <;> rfl
@[simp] theorem State.writeX_syscalls (r : Reg) (v : Word) : (s.writeX r v).syscalls = s.syscalls := by
  unfold State.writeX; split <;> rfl
@[simp] theorem State.writeX_debugHandler (r : Reg) (v : Word) : (s.writeX r v).debugHandler = s.debugHandler := by
  unfold State.writeX; split <;> rfl
@[simp] theorem State.writeX_run (r : Reg) (v : Word) : (s.writeX r v).run = s.run := by
  unfold State.writeX; split <;> rfl
@[simp] theorem State.writeX_draws (r : Reg) (v : Word) : (s.writeX r v).draws = s.draws := by
  unfold State.writeX; split <;> rfl

/-! ### refusedStore -/

/-- A memory that checks every byte first writes nothing of a store it refuses (20_memory.md R195). -/
theorem State.refusedStore_of_checkFirst (h : s.mem.checkFirst = true) (a : Word) (n : Nat) (v : Word) :
    s.refusedStore a n v = s := by
  simp [State.refusedStore, State.splitRefused, h]

@[simp] theorem State.refusedStore_cfg (a : Word) (n : Nat) (v : Word) : (s.refusedStore a n v).cfg = s.cfg := by
  unfold State.refusedStore; split <;> rfl
@[simp] theorem State.refusedStore_x (a : Word) (n : Nat) (v : Word) : (s.refusedStore a n v).x = s.x := by
  unfold State.refusedStore; split <;> rfl
@[simp] theorem State.refusedStore_f (a : Word) (n : Nat) (v : Word) : (s.refusedStore a n v).f = s.f := by
  unfold State.refusedStore; split <;> rfl
@[simp] theorem State.refusedStore_pc (a : Word) (n : Nat) (v : Word) : (s.refusedStore a n v).pc = s.pc := by
  unfold State.refusedStore; split <;> rfl
@[simp] theorem State.refusedStore_fcsr (a : Word) (n : Nat) (v : Word) : (s.refusedStore a n v).fcsr = s.fcsr := by
  unfold State.refusedStore; split <;> rfl
@[simp] theorem State.refusedStore_instret (a : Word) (n : Nat) (v : Word) :
    (s.refusedStore a n v).instret = s.instret := by
  unfold State.refusedStore; split <;> rfl
@[simp] theorem State.refusedStore_stopped (a : Word) (n : Nat) (v : Word) :
    (s.refusedStore a n v).stopped = s.stopped := by
  unfold State.refusedStore; split <;> rfl
@[simp] theorem State.refusedStore_reservation (a : Word) (n : Nat) (v : Word) :
    (s.refusedStore a n v).reservation = s.reservation := by
  unfold State.refusedStore; split <;> rfl
@[simp] theorem State.refusedStore_budget (a : Word) (n : Nat) (v : Word) :
    (s.refusedStore a n v).budget = s.budget := by
  unfold State.refusedStore; split <;> rfl
@[simp] theorem State.refusedStore_syscalls (a : Word) (n : Nat) (v : Word) :
    (s.refusedStore a n v).syscalls = s.syscalls := by
  unfold State.refusedStore; split <;> rfl
@[simp] theorem State.refusedStore_debugHandler (a : Word) (n : Nat) (v : Word) :
    (s.refusedStore a n v).debugHandler = s.debugHandler := by
  unfold State.refusedStore; split <;> rfl
@[simp] theorem State.refusedStore_run (a : Word) (n : Nat) (v : Word) : (s.refusedStore a n v).run = s.run := by
  unfold State.refusedStore; split <;> rfl

/-! ### csrDrawn -/

@[simp] theorem State.csrDrawn_cfg (c : Csr) : (s.csrDrawn c).cfg = s.cfg := by
  unfold State.csrDrawn; split <;> rfl
@[simp] theorem State.csrDrawn_x (c : Csr) : (s.csrDrawn c).x = s.x := by
  unfold State.csrDrawn; split <;> rfl
@[simp] theorem State.csrDrawn_f (c : Csr) : (s.csrDrawn c).f = s.f := by
  unfold State.csrDrawn; split <;> rfl
@[simp] theorem State.csrDrawn_pc (c : Csr) : (s.csrDrawn c).pc = s.pc := by
  unfold State.csrDrawn; split <;> rfl
@[simp] theorem State.csrDrawn_fcsr (c : Csr) : (s.csrDrawn c).fcsr = s.fcsr := by
  unfold State.csrDrawn; split <;> rfl
@[simp] theorem State.csrDrawn_instret (c : Csr) : (s.csrDrawn c).instret = s.instret := by
  unfold State.csrDrawn; split <;> rfl
@[simp] theorem State.csrDrawn_stopped (c : Csr) : (s.csrDrawn c).stopped = s.stopped := by
  unfold State.csrDrawn; split <;> rfl
@[simp] theorem State.csrDrawn_reservation (c : Csr) : (s.csrDrawn c).reservation = s.reservation := by
  unfold State.csrDrawn; split <;> rfl
@[simp] theorem State.csrDrawn_mem (c : Csr) : (s.csrDrawn c).mem = s.mem := by
  unfold State.csrDrawn; split <;> rfl
@[simp] theorem State.csrDrawn_budget (c : Csr) : (s.csrDrawn c).budget = s.budget := by
  unfold State.csrDrawn; split <;> rfl
@[simp] theorem State.csrDrawn_syscalls (c : Csr) : (s.csrDrawn c).syscalls = s.syscalls := by
  unfold State.csrDrawn; split <;> rfl
@[simp] theorem State.csrDrawn_debugHandler (c : Csr) : (s.csrDrawn c).debugHandler = s.debugHandler := by
  unfold State.csrDrawn; split <;> rfl
@[simp] theorem State.csrDrawn_run (c : Csr) : (s.csrDrawn c).run = s.run := by
  unfold State.csrDrawn; split <;> rfl

/-! ### csrWrite -/

@[simp] theorem State.csrWrite_cfg (c : Csr) (v : Word) : (s.csrWrite c v).cfg = s.cfg := by
  cases c <;> rfl
@[simp] theorem State.csrWrite_x (c : Csr) (v : Word) : (s.csrWrite c v).x = s.x := by
  cases c <;> rfl
@[simp] theorem State.csrWrite_f (c : Csr) (v : Word) : (s.csrWrite c v).f = s.f := by
  cases c <;> rfl
@[simp] theorem State.csrWrite_pc (c : Csr) (v : Word) : (s.csrWrite c v).pc = s.pc := by
  cases c <;> rfl
@[simp] theorem State.csrWrite_instret (c : Csr) (v : Word) : (s.csrWrite c v).instret = s.instret := by
  cases c <;> rfl
@[simp] theorem State.csrWrite_stopped (c : Csr) (v : Word) : (s.csrWrite c v).stopped = s.stopped := by
  cases c <;> rfl
@[simp] theorem State.csrWrite_reservation (c : Csr) (v : Word) : (s.csrWrite c v).reservation = s.reservation := by
  cases c <;> rfl
@[simp] theorem State.csrWrite_mem (c : Csr) (v : Word) : (s.csrWrite c v).mem = s.mem := by
  cases c <;> rfl
@[simp] theorem State.csrWrite_budget (c : Csr) (v : Word) : (s.csrWrite c v).budget = s.budget := by
  cases c <;> rfl
@[simp] theorem State.csrWrite_syscalls (c : Csr) (v : Word) : (s.csrWrite c v).syscalls = s.syscalls := by
  cases c <;> rfl
@[simp] theorem State.csrWrite_debugHandler (c : Csr) (v : Word) :
    (s.csrWrite c v).debugHandler = s.debugHandler := by
  cases c <;> rfl
@[simp] theorem State.csrWrite_run (c : Csr) (v : Word) : (s.csrWrite c v).run = s.run := by
  cases c <;> rfl
@[simp] theorem State.csrWrite_draws (c : Csr) (v : Word) : (s.csrWrite c v).draws = s.draws := by
  cases c <;> rfl

/-! ### fork -/

/-- The parent keeps all but its count of free values. -/
@[simp] theorem State.fork_fst : s.fork.1 = { s with draws := s.draws + 1 } := rfl

/-- The child is the parent at the moment of the fork, its free values apart. -/
@[simp] theorem State.fork_snd : s.fork.2 = { s with draws := Config.forkDraws s.draws } := rfl

end Sys2Proof.Machine
end

