-- ==== Sys2Proof/Laws/Ops.lean ====
section
/-! SUPPORT. The small lemmas of the operand forms and of the registers, and for each shared operation one lemma that
says everything it can do. -/

namespace Sys2Proof

/-! ### Values of XLEN bits -/

@[simp] theorem Xlen.narrow_toNat (xl : Xlen) (v : Word) : (xl.narrow v).toNat = v.toNat % 2 ^ xl.bits := by
  cases xl
  · simp only [narrow, bits, BitVec.toNat_setWidth]
    omega
  · have := v.isLt
    simp only [narrow, bits]
    omega

theorem Xlen.narrow_lt (xl : Xlen) (v : Word) : (xl.narrow v).toNat < 2 ^ xl.bits := by
  rw [narrow_toNat]
  exact Nat.mod_lt _ (by cases xl <;> decide)

theorem Xlen.size_pos (xl : Xlen) : 0 < 2 ^ xl.bits := by cases xl <;> decide

/-- XLEN bits fit a word: 2^XLEN divides 2^64. -/
theorem Xlen.size_dvd (xl : Xlen) : 2 ^ xl.bits ∣ 2 ^ 64 := by cases xl <;> decide

theorem Xlen.narrow_of_lt {xl : Xlen} {v : Word} (h : v.toNat < 2 ^ xl.bits) : xl.narrow v = v := by
  apply BitVec.eq_of_toNat_eq
  rw [narrow_toNat, Nat.mod_eq_of_lt h]

@[simp] theorem Xlen.narrow_narrow (xl : Xlen) (v : Word) : xl.narrow (xl.narrow v) = xl.narrow v :=
  narrow_of_lt (xl.narrow_lt v)

/-- A sum of words read modulo 2^XLEN. -/
theorem Xlen.narrow_add_toNat (xl : Xlen) (a b : Word) :
    (xl.narrow (a + b)).toNat = (a.toNat + b.toNat) % 2 ^ xl.bits := by
  rw [narrow_toNat, BitVec.toNat_add, Nat.mod_mod_of_dvd _ xl.size_dvd]

/-- `sext_n(v)` is `v` read as signed, modulo 2^XLEN. -/
theorem Xlen.sext_toNat (xl : Xlen) {n : Nat} (v : BitVec n) (h : n ≤ 64) :
    ((xl.sext v).toNat : Int) = v.toInt % (2 ^ xl.bits : Nat) := by
  have hv : ((v.signExtend 64).toNat : Int) = v.toInt % (2 ^ 64 : Nat) := by
    have h1 : (v.signExtend 64).toInt = v.toInt := BitVec.toInt_signExtend_of_le h
    have h2 := BitVec.toInt_eq_toNat_bmod (v.signExtend 64)
    rw [← h1, h2, Int.bmod_emod]
    have := (v.signExtend 64).isLt
    omega
  unfold sext
  rw [narrow_toNat]
  push_cast
  rw [hv]
  cases xl <;> simp only [bits] <;> omega

end Sys2Proof

namespace Sys2Proof.Machine

/-! ### Registers -/

@[simp] theorem State.readX_zero (s : State) : s.readX 0#5 = 0#64 := by simp [State.readX]

theorem State.readX_lt (s : State) (r : Reg) : (s.readX r).toNat < 2 ^ s.cfg.xlen.bits := by
  unfold State.readX
  split
  · exact s.cfg.xlen.size_pos
  · exact s.cfg.xlen.narrow_lt _

theorem State.narrow_readX (s : State) (r : Reg) : s.cfg.xlen.narrow (s.readX r) = s.readX r :=
  Xlen.narrow_of_lt (s.readX_lt r)

/-- What a write to an integer register leaves to be read. -/
theorem State.readX_writeX (s : State) (rd r : Reg) (v : Word) :
    (s.writeX rd v).readX r = if r = rd ∧ rd ≠ 0#5 then s.cfg.xlen.narrow v else s.readX r := by
  unfold State.writeX
  by_cases h0 : rd = 0#5
  · simp [h0]
  · by_cases hr : r = rd
    · subst hr
      simp [State.readX, h0]
    · have : rd.toNat ≠ r.toNat := fun h => hr (BitVec.eq_of_toNat_eq h).symm
      simp [State.readX, h0, hr, this]

theorem State.readX_writeX_ne (s : State) {rd r : Reg} (v : Word) (h : r ≠ rd) : (s.writeX rd v).readX r = s.readX r := by
  simp [State.readX_writeX, h]

theorem State.readX_writeX_self (s : State) {rd : Reg} (v : Word) (h : rd ≠ 0#5) :
    (s.writeX rd v).readX rd = s.cfg.xlen.narrow v := by
  simp [State.readX_writeX, h]

/-- What a write to a floating-point register leaves to be read. -/
theorem State.readF_writeF (s : State) (rd r : FReg) (v : BitVec 64) :
    (s.writeF rd v).readF r = if r = rd then v else s.readF r := by
  by_cases hr : r = rd
  · subst hr
    simp [State.readF, State.writeF]
  · have : rd.toNat ≠ r.toNat := fun h => hr (BitVec.eq_of_toNat_eq h).symm
    simp [State.readF, State.writeF, hr, this]

/-- Reading depends on the register file and the configuration alone. -/
theorem State.readX_congr {s t : State} (hx : t.x = s.x) (hc : t.cfg = s.cfg) (r : Reg) : t.readX r = s.readX r := by
  simp [State.readX, hx, hc]

theorem State.readF_congr {s t : State} (hf : t.f = s.f) (r : FReg) : t.readF r = s.readF r := by
  simp [State.readF, hf]

theorem State.readPc_congr {s t : State} (hp : t.pc = s.pc) (hc : t.cfg = s.cfg) : t.readPc = s.readPc := by
  simp [State.readPc, hp, hc]

@[simp] theorem State.readX_retire (s : State) (len : Nat) (r : Reg) : (s.retire len).readX r = s.readX r := rfl
@[simp] theorem State.readF_retire (s : State) (len : Nat) (r : FReg) : (s.retire len).readF r = s.readF r := rfl
@[simp] theorem State.readX_jump (s : State) (t : Word) (r : Reg) : (s.jump t).readX r = s.readX r := rfl
@[simp] theorem State.readF_jump (s : State) (t : Word) (r : FReg) : (s.jump t).readF r = s.readF r := rfl
@[simp] theorem State.readX_trap (s : State) (k : TrapKind) (v : Word) (r : Reg) : (s.trap k v).readX r = s.readX r := rfl
@[simp] theorem State.readF_trap (s : State) (k : TrapKind) (v : Word) (r : FReg) : (s.trap k v).readF r = s.readF r := rfl
@[simp] theorem State.readX_setFlags (s : State) (fl : FFlags) (r : Reg) : (s.setFlags fl).readX r = s.readX r := rfl
@[simp] theorem State.readF_setFlags (s : State) (fl : FFlags) (r : FReg) : (s.setFlags fl).readF r = s.readF r := rfl
@[simp] theorem State.readX_writeF (s : State) (rd : FReg) (v : BitVec 64) (r : Reg) :
    (s.writeF rd v).readX r = s.readX r := rfl
@[simp] theorem State.readX_storeValue (s : State) (a : Word) (n : Nat) (v : Word) (r : Reg) :
    (s.storeValue a n v).readX r = s.readX r := rfl
@[simp] theorem State.readF_storeValue (s : State) (a : Word) (n : Nat) (v : Word) (r : FReg) :
    (s.storeValue a n v).readF r = s.readF r := rfl

theorem State.readF_writeX (s : State) (rd : Reg) (v : Word) (r : FReg) : (s.writeX rd v).readF r = s.readF r :=
  State.readF_congr (s.writeX_f rd v) r

/-- pc after a sequential completion. -/
theorem State.readPc_retire (s : State) (len : Nat) :
    (s.retire len).readPc.toNat = (s.readPc.toNat + len) % 2 ^ s.cfg.xlen.bits := by
  unfold State.readPc
  rw [State.retire_pc, State.retire_cfg, Xlen.narrow_narrow, Xlen.narrow_add_toNat, Xlen.narrow_toNat,
    BitVec.toNat_ofNat, Nat.mod_add_mod, Nat.add_mod, Nat.mod_mod_of_dvd _ s.cfg.xlen.size_dvd, ← Nat.add_mod]

/-- pc after a transfer. -/
theorem State.readPc_jump (s : State) (t : Word) : (s.jump t).readPc = s.cfg.xlen.narrow t := by
  simp [State.readPc]

/-! ### Flags -/

theorem State.fflags_setFlags (s : State) (fl : FFlags) : (s.setFlags fl).fflags = s.fflags ||| fl := by
  simp only [State.fflags, State.setFlags, State.frm]
  ext i hi
  simp
  grind

theorem State.frm_setFlags (s : State) (fl : FFlags) : (s.setFlags fl).frm = s.frm := by
  simp only [State.fflags, State.setFlags, State.frm]
  ext i hi
  simp
  grind

/-! ### Addresses -/

theorem byteAddr_eq (xl : Xlen) (a : Word) (i : Nat) : byteAddr xl a i = (a.toNat + i) % 2 ^ xl.bits := by
  unfold byteAddr
  rw [Xlen.narrow_add_toNat, BitVec.toNat_ofNat, Nat.add_mod, Nat.mod_mod_of_dvd _ xl.size_dvd, ← Nat.add_mod]

theorem byteAddr_lt (xl : Xlen) (a : Word) (i : Nat) : byteAddr xl a i < 2 ^ xl.bits := by
  rw [byteAddr_eq]
  exact Nat.mod_lt _ xl.size_pos

theorem mem_span {xl : Xlen} {a : Word} {n b : Nat} : b ∈ span xl a n ↔ ∃ i, i < n ∧ byteAddr xl a i = b := by
  simp [span]

/-- The bytes of an access are distinct addresses. -/
theorem span_nodup (xl : Xlen) (a : Word) {n : Nat} (hn : n ≤ 8) : (span xl a n).Nodup := by
  unfold span
  refine List.Nodup.map_on (fun i hi j hj h => ?_) List.nodup_range
  rw [List.mem_range] at hi hj
  rw [byteAddr_eq, byteAddr_eq] at h
  have ha := a.isLt
  cases xl <;> simp only [Xlen.bits] at h <;> omega

theorem storeCells_map_fst (xl : Xlen) (a : Word) (n : Nat) (v : Word) :
    (storeCells xl a n v).map (·.1) = span xl a n := by
  simp [storeCells, span]

/-- No byte of the access is refused exactly when the memory accepts each. -/
theorem State.refusal_eq_none {s : State} {acc : Access} {a : Word} {n : Nat} :
    s.refusal acc a n = none ↔ ∀ i, i < n → s.mem.byteRefusal acc (byteAddr s.cfg.xlen a i) = none := by
  simp [State.refusal, span]

/-! ### What each shared operation can do -/

/-- An access for reading traps with the access's address or goes on with the value. -/
theorem State.withRead_cases (s : State) (a : Word) (n : Nat) (k : Word → Out) :
    (∃ kind, s.refusal .read a n = some kind ∧ s.withRead a n k = .next (s.trap kind a)) ∨
      (s.refusal .read a n = none ∧ s.withRead a n k = k (s.loadValue a n)) := by
  unfold State.withRead
  cases h : s.refusal .read a n with
  | none => exact .inr ⟨rfl, rfl⟩
  | some kind => exact .inl ⟨kind, rfl, rfl⟩

/-- An access for writing traps, with the bytes R162 allows written, or goes on with the bytes written. -/
theorem State.withWrite_cases (s : State) (a : Word) (n : Nat) (v : Word) (k : State → Out) :
    (∃ kind, s.refusal .write a n = some kind ∧ s.withWrite a n v k = .next ((s.refusedStore a n v).trap kind a)) ∨
      (s.refusal .write a n = none ∧ s.withWrite a n v k = k (s.storeValue a n v)) := by
  unfold State.withWrite
  cases h : s.refusal .write a n with
  | none => exact .inr ⟨rfl, rfl⟩
  | some kind => exact .inl ⟨kind, rfl, rfl⟩

/-- The alignment check traps or lets through. -/
theorem State.withAligned_cases (s : State) (a : Word) (n : Nat) (k : Out) :
    (a.toNat % n ≠ 0 ∧ s.withAligned a n k = .next (s.trap .misalignedFault a)) ∨
      (a.toNat % n = 0 ∧ s.withAligned a n k = k) := by
  unfold State.withAligned
  by_cases h : a.toNat % n = 0
  · exact .inr ⟨h, if_pos h⟩
  · exact .inl ⟨h, if_neg h⟩

/-- A transfer traps on a misaligned target or jumps. -/
theorem State.transfer_cases (s : State) (t : Word) (w : State → State) :
    (s.targetOk t = false ∧ s.transfer t w = .next (s.trap .misalignedFault t)) ∨
      (s.targetOk t = true ∧ s.transfer t w = .next ((w s).jump t)) := by
  unfold State.transfer
  cases h : s.targetOk t
  · exact .inl ⟨rfl, rfl⟩
  · exact .inr ⟨rfl, rfl⟩

/-- A branch is not taken, or is a transfer that writes nothing. -/
theorem State.branch_cases (s : State) (taken : Bool) (off : BitVec 12) (len : Nat) :
    (taken = false ∧ s.branch taken off len = .next (s.retire len)) ∨
      (taken = true ∧ s.branch taken off len = s.transfer (s.cfg.xlen.narrow (s.readPc + s.cfg.xlen.offset off)) id) := by
  cases taken
  · exact .inl ⟨rfl, rfl⟩
  · exact .inr ⟨rfl, rfl⟩

/-- The rounding-mode check traps or hands a mode on. -/
theorem State.withRounding_cases (s : State) (rm : BitVec 3) (bits : Word) (k : RoundingMode → Out) :
    (s.roundingMode rm = none ∧ s.withRounding rm bits k = .next (s.trap .illegalInstruction bits)) ∨
      (∃ m, s.roundingMode rm = some m ∧ s.withRounding rm bits k = k m) := by
  unfold State.withRounding
  cases s.roundingMode rm with
  | none => exact .inl ⟨rfl, rfl⟩
  | some m => exact .inr ⟨m, rfl, rfl⟩

/-- A Zicsr instruction traps, or reads, perhaps writes, and completes. -/
theorem State.csrOp_cases (s : State) (bits : Word) (num : CsrNum) (rd : Reg) (f : Option (Word → Word)) :
    s.csrOp bits num rd f = .next (s.trap .illegalInstruction bits) ∨
      (∃ c, Csr.ofNum s.cfg num = some c ∧ f = none ∧
        s.csrOp bits num rd f = .next (((s.csrDrawn c).writeX rd (s.csrRead c)).retire 4)) ∨
      (∃ c g, Csr.ofNum s.cfg num = some c ∧ f = some g ∧ c.readOnly = false ∧
        s.csrOp bits num rd f = .next (((s.csrWrite c (g (s.csrRead c))).writeX rd (s.csrRead c)).retire 4)) := by
  unfold State.csrOp
  cases hc : Csr.ofNum s.cfg num with
  | none => exact .inl rfl
  | some c =>
    cases f with
    | none => exact .inr (.inl ⟨c, rfl, rfl, rfl⟩)
    | some g =>
      cases hr : c.readOnly with
      | true => exact .inl (by simp [hr])
      | false => exact .inr (.inr ⟨c, g, rfl, rfl, hr, by simp [hr]⟩)

/-- A host call ends with the callback's state retired, or in the trap it reports. -/
theorem State.hostCall_cases (s : State) (call : HostCall) (len : Nat) :
    ∃ acts, (s.hostCall call len = .next (({ s with draws := s.draws + 1 }.hostActs acts).retire len)) ∨
      ∃ k v, s.hostCall call len = .next (({ s with draws := s.draws + 1 }.hostActs acts).trap k v) := by
  refine ⟨(Config.hostReply call s.draws s).actions, ?_⟩
  cases h : (Config.hostReply call s.draws s).fatal with
  | none => exact .inl (by simp only [State.hostCall, h])
  | some k => exact .inr ⟨k.1, s.cfg.xlen.narrow k.2, by simp only [State.hostCall, h]⟩

/-- The front of a step traps before execution, or hands an instruction on. -/
theorem State.stepFront_cases (s : State) :
    (∃ k v, s.stepFront = .done (s.trap k v)) ∨ ∃ i, s.stepFront = .execute i := by
  unfold State.stepFront
  split
  · cases s.fetch with
    | fault kind a => exact .inl ⟨kind, a, rfl⟩
    | ok p =>
      show (∃ k v, s.decodeFront p = _) ∨ ∃ i, s.decodeFront p = _
      unfold State.decodeFront
      cases decode s.cfg p with
      | ok i => exact .inr ⟨i, rfl⟩
      | illegal => exact .inl ⟨_, _, rfl⟩
      | unimplemented => exact .inl ⟨_, _, rfl⟩
      | truncated => exact .inl ⟨_, _, rfl⟩
  · exact .inl ⟨_, _, rfl⟩

/-- The front of an iteration: nothing outside `simulate`, a boundary result, a trap before execution, or an
instruction to execute. -/
theorem State.front_cases (s : State) :
    (s.run ≠ .running ∧ s.front = .done s) ∨
      (s.run = .running ∧ ∃ r, s.front = .done { s with run := .returned r }) ∨
      (s.run = .running ∧ s.stopped = false ∧ s.instret.toNat < s.budget.toNat ∧ ∃ i, s.front = .execute i) := by
  by_cases hr : s.run = .running
  · refine .inr ?_
    have hf : s.front = if s.stopped then .done { s with run := .returned .stopped }
        else if s.budget.toNat ≤ s.instret.toNat then .done { s with run := .returned .instructionLimit }
        else s.stepFront := by
      unfold State.front
      rw [hr]
    rw [hf]
    by_cases hs : s.stopped = true
    · exact .inl ⟨hr, .stopped, if_pos hs⟩
    · by_cases hb : s.budget.toNat ≤ s.instret.toNat
      · exact .inl ⟨hr, .instructionLimit, by rw [if_neg hs, if_pos hb]⟩
      · rw [if_neg hs, if_neg hb]
        rcases s.stepFront_cases with ⟨k, v, h⟩ | ⟨i, h⟩
        · exact .inl ⟨hr, .trap k v, h⟩
        · exact .inr ⟨hr, by simpa using hs, by omega, i, h⟩
  · refine .inl ⟨hr, ?_⟩
    unfold State.front
    cases h : s.run with
    | idle => rfl
    | returned r => rfl
    | running => exact absurd h hr

/-- A step is its front, or the meaning of the instruction its front hands on. -/
theorem step_cases (s : State) :
    (∃ t, s.front = .done t ∧ step s = .next t) ∨ ∃ i, s.front = .execute i ∧ step s = exec i s := by
  unfold step
  cases s.front with
  | done t => exact .inl ⟨t, rfl, rfl⟩
  | execute i => exact .inr ⟨i, rfl, rfl⟩

end Sys2Proof.Machine
end

