-- ==== Sys2Proof/Laws/Complete.lean ====
section
/-! SUPPORT. From the shape of a meaning to the terms of Safety.lean: what an instruction of each shape leaves
unchanged, when it completes and how it traps, once per shape. -/

namespace Sys2Proof.Machine

/-! ### Frames of the named updates -/

theorem SameMachine.refl (s : State) : SameMachine s s := ⟨rfl, rfl, rfl, rfl, rfl, rfl, rfl, rfl, rfl, rfl⟩

theorem sameMachine_writeX (s : State) (rd : Reg) (v : Word) : SameMachine s (s.writeX rd v) :=
  ⟨by simp, by simp, by simp, by simp, by simp, by simp, by simp, by simp, by simp, by simp⟩

theorem SameMachine.retire {s t : State} (h : SameMachine s t) (len : Nat) : SameMachine s (t.retire len) :=
  ⟨h.1, h.2, h.3, h.4, h.5, h.6, h.7, h.8, h.9, h.10⟩

theorem SameMachine.jump {s t : State} (h : SameMachine s t) (target : Word) : SameMachine s (t.jump target) :=
  ⟨h.1, h.2, h.3, h.4, h.5, h.6, h.7, h.8, h.9, h.10⟩

theorem advanced_retire {s u : State} (len : Nat) (hc : u.cfg = s.cfg) (hp : u.pc = s.pc)
    (hi : u.instret = s.instret) : Advanced s (u.retire len) len := by
  refine ⟨?_, ?_⟩
  · rw [State.readPc_retire, State.readPc_congr hp hc, hc]
    rfl
  · simp [hi]

theorem wentTo_jump {s u : State} (target : Word) (hc : u.cfg = s.cfg) (hi : u.instret = s.instret)
    (ht : target.toNat < s.size) : WentTo s (u.jump target) target.toNat := by
  refine ⟨?_, ?_⟩
  · rw [State.readPc_jump, hc, Xlen.narrow_of_lt ht]
  · simp [hi]

theorem sameXBut_writeX (s : State) (rd : Reg) (v : Word) : SameXBut s (s.writeX rd v) [rd] :=
  fun r hr => State.readX_writeX_ne s v (by simpa using hr)

theorem U_writeX (s : State) {rd : Reg} (v : Word) (h : rd ≠ 0#5) : (s.writeX rd v).U rd = (v.toNat : Int) % s.size := by
  simp only [State.U, State.readX_writeX_self s v h, Xlen.narrow_toNat, State.size]
  push_cast
  rfl

theorem onlyX_writeX (s : State) (rd : Reg) (v : Word) : OnlyX s (s.writeX rd v) rd :=
  ⟨sameMachine_writeX s rd v, sameXBut_writeX s rd v, by simp, fun r _ => State.readF_writeX s rd v r, by simp, by simp,
    fun b => by simp⟩

theorem OnlyX.retire {s t : State} {rd : Reg} (h : OnlyX s t rd) (len : Nat) : OnlyX s (t.retire len) rd :=
  ⟨h.machine.retire len, h.regs, h.zero, h.fregs, h.fcsr, h.reservation, h.memory⟩

theorem OnlyX.jump {s t : State} {rd : Reg} (h : OnlyX s t rd) (target : Word) : OnlyX s (t.jump target) rd :=
  ⟨h.machine.jump target, h.regs, h.zero, h.fregs, h.fcsr, h.reservation, h.memory⟩

theorem onlyX_refl (s : State) (rd : Reg) : OnlyX s s rd :=
  ⟨.refl s, fun _ _ => rfl, by simp, fun _ _ => rfl, rfl, rfl, fun _ => rfl⟩

/-! ### Instructions that write one register -/

/-- A meaning that is `setX`: the statement is about the value alone. -/
theorem yieldsX_of_setX {i : Instr} {s : State} {rd : Reg} {v : Word} {V : Int} {len : Nat}
    (h : exec i s = s.setX rd v len) (hv : (v.toNat : Int) % s.size = V % s.size) : YieldsX i s rd V len :=
  ⟨_, h, fun hrd => by rw [← hv, ← U_writeX s v hrd]; rfl, (onlyX_writeX s rd v).retire len,
    advanced_retire len (by simp) (by simp) (by simp)⟩

/-- A meaning that is `setF`: no flag is touched. -/
theorem yieldsF_of_setF {i : Instr} {s : State} {rd : FReg} {v : BitVec 64} {len : Nat}
    (h : exec i s = s.setF rd v len) : YieldsF i s rd v 0#5 len :=
  ⟨_, h, by simp [State.readF_writeF], by simp [State.fflags],
    ⟨⟨rfl, rfl, rfl, rfl, rfl, rfl, rfl, rfl, rfl, rfl⟩, fun r _ => rfl,
      fun r hr => (by simp at hr; simp [State.readF_writeF, hr]), rfl, rfl, fun _ => rfl⟩,
    advanced_retire len rfl rfl rfl⟩

/-- A meaning that writes a floating-point register and accrues flags. -/
theorem yieldsF_of_flags {i : Instr} {s : State} {rd : FReg} {v : BitVec 64} {fl : FFlags} {len : Nat}
    (h : exec i s = .next (((s.writeF rd v).setFlags fl).retire len)) : YieldsF i s rd v fl len :=
  ⟨_, h, by simp [State.readF_writeF], State.fflags_setFlags _ _,
    ⟨⟨rfl, rfl, rfl, rfl, rfl, rfl, rfl, rfl, rfl, rfl⟩, fun r _ => rfl,
      fun r hr => (by simp at hr; simp [State.readF_writeF, hr]), State.frm_setFlags _ _, rfl, fun _ => rfl⟩,
    advanced_retire len rfl rfl rfl⟩

/-- A meaning that writes an integer register and accrues flags. -/
theorem yieldsXFlags_of_flags {i : Instr} {s : State} {rd : Reg} {v : Word} {V : Int} {fl : FFlags}
    (h : exec i s = .next (((s.writeX rd v).setFlags fl).retire 4)) (hv : (v.toNat : Int) % s.size = V % s.size) :
    YieldsXFlags i s rd V fl :=
  ⟨_, h, fun hrd => by rw [← hv, ← U_writeX s v hrd]; rfl,
    (State.fflags_setFlags _ _).trans (by simp [State.fflags]),
    (State.frm_setFlags _ _).trans (by simp [State.frm]),
    ⟨by simp, by simp, by simp, by simp, by simp, by simp, by simp, by simp, by simp, by simp⟩,
    fun r hr => sameXBut_writeX s rd v r hr, by simp, fun r _ => State.readF_writeX s rd v r, by simp, fun _ => by simp,
    advanced_retire 4 (by simp) (by simp) (by simp)⟩

/-! ### Memory -/

theorem accepts_iff {s : State} {acc : Access} {a : Word} {n : Nat} :
    s.refusal acc a n = none ↔ s.Accepts acc a.toNat n := by
  rw [State.refusal_eq_none]
  simp only [State.Accepts, State.size, byteAddr_eq]

theorem refuses_iff {s : State} {acc : Access} {a : Word} {n : Nat} {kind : TrapKind} :
    s.refusal acc a n = some kind ↔ s.Refuses acc a.toNat n kind := by
  simp only [State.refusal, span, List.findSome?_map, State.Refuses, State.Accepts, State.size]
  have key : ∀ n, (List.range n).findSome? (s.mem.byteRefusal acc ∘ byteAddr s.cfg.xlen a) = some kind ↔
      ∃ k, k < n ∧ (∀ j, j < k → s.mem.byteRefusal acc ((a.toNat + j) % 2 ^ s.cfg.xlen.bits) = none) ∧
        s.mem.byteRefusal acc ((a.toNat + k) % 2 ^ s.cfg.xlen.bits) = some kind := by
    intro n
    induction n with
    | zero => simp
    | succ n ih =>
      rw [List.range_succ, List.findSome?_append]
      cases hf : (List.range n).findSome? (s.mem.byteRefusal acc ∘ byteAddr s.cfg.xlen a) with
      | some k' =>
        rw [hf] at ih
        simp only [Option.some_or]
        rw [ih]
        constructor
        · rintro ⟨k, hk, h1, h2⟩
          exact ⟨k, by omega, h1, h2⟩
        · rintro ⟨k, hk, h1, h2⟩
          by_cases hkn : k = n
          · subst hkn
            have hnone : (List.range k).findSome? (s.mem.byteRefusal acc ∘ byteAddr s.cfg.xlen a) = none := by
              simp only [List.findSome?_eq_none_iff, List.mem_range, Function.comp, byteAddr_eq]
              exact h1
            rw [hnone] at hf
            cases hf
          · exact ⟨k, by omega, h1, h2⟩
      | none =>
        simp only [Option.none_or]
        have hall : ∀ j, j < n → s.mem.byteRefusal acc ((a.toNat + j) % 2 ^ s.cfg.xlen.bits) = none := by
          simpa only [List.findSome?_eq_none_iff, List.mem_range, Function.comp, byteAddr_eq] using hf
        simp only [List.findSome?_cons, List.findSome?_nil, Function.comp, byteAddr_eq]
        constructor
        · intro h
          refine ⟨n, by omega, hall, ?_⟩
          cases hb : s.mem.byteRefusal acc ((a.toNat + n) % 2 ^ s.cfg.xlen.bits) <;> simp_all
        · rintro ⟨k, hk, h1, h2⟩
          by_cases hkn : k = n
          · subst hkn; simp [h2]
          · rw [hall k (by omega)] at h2; cases h2
  exact key n

/-- A trap that keeps the state. -/
theorem trapsWith_of_trap {i : Instr} {s : State} {kind : TrapKind} {v : Word} (h : exec i s = .next (s.trap kind v)) :
    TrapsWith i s kind v := h

/-- A meaning that is `withRead` then `setX`. -/
theorem loadsX_of_withRead {i : Instr} {s : State} {rd : Reg} {a : Word} {n : Nat} {f : Word → Word} {V : Int}
    {len : Nat} (h : exec i s = s.withRead a n fun v => s.setX rd (f v) len)
    (hv : ((f (s.loadValue a n)).toNat : Int) % s.size = V % s.size) : LoadsX i s rd a n V len := by
  refine ⟨fun ha => ?_, fun kind hk => ?_⟩
  · refine yieldsX_of_setX (v := f (s.loadValue a n)) ?_ hv
    rw [h, State.withRead, accepts_iff.mpr ha]
  · exact h.trans (by rw [State.withRead, refuses_iff.mpr hk]; rfl)

/-- A meaning that is `withRead` then `setF`. -/
theorem loadsF_of_withRead {i : Instr} {s : State} {rd : FReg} {a : Word} {n : Nat} {f : Word → BitVec 64}
    {len : Nat} (h : exec i s = s.withRead a n fun v => s.setF rd (f v) len) :
    LoadsF i s rd a n (f (s.loadValue a n)) len := by
  refine ⟨fun ha => ?_, fun kind hk => ?_⟩
  · exact yieldsF_of_setF (h.trans (by rw [State.withRead, accepts_iff.mpr ha]))
  · exact h.trans (by rw [State.withRead, refuses_iff.mpr hk]; rfl)

/-- The bytes a store of up to eight bytes leaves. -/
theorem stored_storeValue (s : State) (a : Word) {n : Nat} (hn : n ≤ 8) (v : Word) :
    Stored s (s.storeValue a n v) a.toNat n v.toNat := by
  have hnd := span_nodup s.cfg.xlen a hn
  refine ⟨fun k hk => ?_, fun b hb => ?_⟩
  · have hm : (byteAddr s.cfg.xlen a k, v.extractLsb' (8 * k) 8) ∈ storeCells s.cfg.xlen a n v := by
      simp only [storeCells, List.mem_map, List.mem_range]
      exact ⟨k, hk, rfl⟩
    have := Memory.byte_writeAll_of_mem s.mem hm (by rw [storeCells_map_fst]; exact hnd)
    rw [byteAddr_eq] at this
    refine Eq.trans this ?_
    apply BitVec.eq_of_toNat_eq
    simp only [BitVec.extractLsb'_toNat, BitVec.toNat_ofNat, Nat.shiftRight_eq_div_pow]
    rw [show (256 : Nat) = 2 ^ 8 by rfl, ← Nat.pow_mul]
  · refine Memory.byte_writeAll_of_notMem s.mem fun w hw => ?_
    simp only [storeCells, List.mem_map, List.mem_range] at hw
    obtain ⟨k, hk, rfl⟩ := hw
    show byteAddr s.cfg.xlen a k ≠ b
    rw [byteAddr_eq]
    exact (hb k hk).symm

theorem sameMachine_storeValue (s : State) (a : Word) (n : Nat) (v : Word) : SameMachine s (s.storeValue a n v) :=
  ⟨rfl, rfl, rfl, rfl, rfl, rfl, by simp [State.storeValue], by simp [State.storeValue], by simp [State.storeValue],
    by simp [State.storeValue]⟩

/-- The value of the bytes at an address. -/
theorem bytesAt_lt (s : State) (a n : Nat) : s.bytesAt a n < 256 ^ n := by
  induction n with
  | zero => simp [State.bytesAt]
  | succ n ih =>
    have hb := (s.mem.byte ((a + n) % s.size)).isLt
    have hm : (s.mem.byte ((a + n) % s.size)).toNat * 256 ^ n ≤ 255 * 256 ^ n := Nat.mul_le_mul_right _ (by omega)
    rw [State.bytesAt, Nat.pow_succ]
    omega

theorem littleEndian_lt (bs : List Byte) (h : bs.length ≤ 8) : (littleEndian bs).toNat < 256 ^ bs.length := by
  induction bs with
  | nil => simp [littleEndian]
  | cons b rest ih =>
    have ih := ih (by simp at h; omega)
    simp only [littleEndian, List.length_cons, BitVec.toNat_or, BitVec.toNat_shiftLeft, BitVec.toNat_setWidth]
    have hb := b.isLt
    have h1 : b.toNat % 2 ^ 64 < 256 ^ (rest.length + 1) :=
      lt_of_lt_of_le (by omega : b.toNat % 2 ^ 64 < 256 ^ 1) (Nat.pow_le_pow_right (by omega) (by omega))
    have h2 : (littleEndian rest).toNat <<< 8 % 2 ^ 64 < 256 ^ (rest.length + 1) := by
      rw [Nat.shiftLeft_eq, Nat.pow_succ]
      exact lt_of_le_of_lt (Nat.mod_le _ _) (by omega)
    have e : (256 : Nat) ^ (rest.length + 1) = 2 ^ (8 * (rest.length + 1)) := by
      rw [show (256 : Nat) = 2 ^ 8 by rfl, ← Nat.pow_mul]
    rw [e] at h1 h2 ⊢
    exact Nat.or_lt_two_pow h2 h1

theorem littleEndian_cons (b : Byte) (rest : List Byte) (h : rest.length ≤ 7) :
    (littleEndian (b :: rest)).toNat = b.toNat + 256 * (littleEndian rest).toNat := by
  have hr := littleEndian_lt rest (by omega)
  have hp : (256 : Nat) ^ rest.length ≤ 256 ^ 7 := Nat.pow_le_pow_right (by omega) h
  have hb := b.isLt
  simp only [littleEndian, BitVec.toNat_or, BitVec.toNat_shiftLeft, BitVec.toNat_setWidth]
  rw [Nat.shiftLeft_eq, Nat.mod_eq_of_lt (by omega : b.toNat < 2 ^ 64),
    Nat.mod_eq_of_lt (by omega : (littleEndian rest).toNat * 2 ^ 8 < 2 ^ 64), Nat.mul_comm,
    ← Nat.two_pow_add_eq_or_of_lt hb]
  omega

/-- Bytes appended are the high part of the value. -/
theorem littleEndian_append (bs : List Byte) (b : Byte) (h : bs.length ≤ 7) :
    (littleEndian (bs ++ [b])).toNat = (littleEndian bs).toNat + b.toNat * 256 ^ bs.length := by
  induction bs with
  | nil =>
    have := b.isLt
    simp [littleEndian]
    omega
  | cons c rest ih =>
    simp only [List.length_cons] at h
    rw [List.cons_append, littleEndian_cons c _ (by simp; omega), littleEndian_cons c rest (by omega),
      ih (by omega), List.length_cons, Nat.pow_succ]
    ring

/-- What a load reads, as a number. -/
theorem loadValue_toNat (s : State) (a : Word) {n : Nat} (hn : n ≤ 8) :
    (s.loadValue a n).toNat = s.bytesAt a.toNat n := by
  induction n with
  | zero => rfl
  | succ n ih =>
    have ih := ih (by omega)
    simp only [State.loadValue, span, List.map_map] at ih ⊢
    rw [List.range_succ, List.map_append, List.map_cons, List.map_nil, littleEndian_append _ _ (by simp; omega), ih,
      List.length_map, List.length_range, State.bytesAt]
    simp only [Function.comp, byteAddr_eq, State.size]

/-- The address of a load or a store is an XLEN-bit value. -/
theorem address_lt (s : State) (rs1 : Reg) (imm : Word) : (s.ea rs1 imm).toNat < s.size := Xlen.narrow_lt _ _

/-- A meaning that is `withWrite` and then retires. -/
theorem stores_of_withWrite {i : Instr} {s : State} {a : Word} {n : Nat} {v : Word} {len : Nat} (hn : n ≤ 8)
    (ha : a.toNat < s.size) (h : exec i s = s.withWrite a n v fun t => .next (t.retire len)) :
    Stores i s a n v.toNat len := by
  refine ⟨fun hacc => ?_, fun kind hk => ?_⟩
  · refine ⟨(s.storeValue a n v).retire len, h.trans (by rw [State.withWrite, accepts_iff.mpr hacc]), ?_, ?_, ?_⟩
    · exact stored_storeValue s a hn v
    · exact ⟨(sameMachine_storeValue s a n v).retire len, fun r _ => rfl, fun r _ => rfl, rfl, rfl⟩
    · exact advanced_retire len rfl rfl rfl
  · refine ⟨(s.refusedStore a n v).trap kind a, h.trans (by rw [State.withWrite, refuses_iff.mpr hk]), ?_⟩
    have hfirst : byteAddr s.cfg.xlen a 0 = a.toNat := by
      rw [byteAddr_eq]
      exact Nat.mod_eq_of_lt ha
    have ha0 : a.toNat % s.size = a.toNat := Nat.mod_eq_of_lt ha
    have hb : ∀ k, byteAddr s.cfg.xlen a k = (a.toNat + k) % s.size := fun k => byteAddr_eq _ _ _
    by_cases hs : s.splitRefused a n = true
    · obtain ⟨hcf, hs'⟩ : s.mem.checkFirst = false ∧ _ := by simpa [State.splitRefused] using hs
      have hr : (∃ k, k < n ∧ pageOf ((a.toNat + k) % s.size) = pageOf (a.toNat % s.size) ∧
          s.mem.byteRefusal .write ((a.toNat + k) % s.size) ≠ none) → False := by
        rintro ⟨k, hkn, hp, hr⟩
        refine absurd ?_ hr
        have := (List.all_eq_true.mp (Bool.and_eq_true_iff.mp hs).2) (byteAddr s.cfg.xlen a k) (by
          rw [List.mem_filter]
          exact ⟨mem_span.mpr ⟨k, hkn, rfl⟩, by rw [onFirstPage, hfirst, hb, hp, ha0]; simp⟩)
        rw [hb] at this
        simpa using this
      cases hl : Config.splitStoreLands s.draws
      · rw [State.refusedStore, if_pos hs, hl]
        exact ⟨rfl, rfl, rfl, rfl, rfl, fun _ => rfl, fun _ => rfl, .inl rfl⟩
      · rw [State.refusedStore, if_pos hs, hl]
        refine ⟨rfl, Memory.writeAll_cap _ _, Memory.writeAll_unmapped _ _, Memory.writeAll_checkFirst _ _,
          Memory.writeAll_pages _ _, fun hc => absurd (hcf.symm.trans hc) (by decide),
          fun hc => (hr hc).elim, .inr ⟨fun k hkn hp => ?_, fun b hne => ?_⟩⟩
        · have hm : (byteAddr s.cfg.xlen a k, v.extractLsb' (8 * k) 8) ∈
              (storeCells s.cfg.xlen a n v).filter fun w => onFirstPage s.cfg.xlen a w.1 := by
            simp only [storeCells, List.mem_filter, List.mem_map, List.mem_range]
            exact ⟨⟨k, hkn, rfl⟩, by simp only [onFirstPage]; rw [hfirst, hb, hp, ha0]; simp⟩
          have hnd : (((storeCells s.cfg.xlen a n v).filter fun w => onFirstPage s.cfg.xlen a w.1).map (·.1)).Nodup := by
            refine List.Nodup.sublist (List.Sublist.map _ List.filter_sublist) ?_
            rw [storeCells_map_fst]
            exact span_nodup _ a hn
          have := Memory.byte_writeAll_of_mem s.mem hm hnd
          rw [hb] at this
          refine Eq.trans this ?_
          apply BitVec.eq_of_toNat_eq
          simp only [BitVec.extractLsb'_toNat, BitVec.toNat_ofNat, Nat.shiftRight_eq_div_pow]
          rw [show (256 : Nat) = 2 ^ 8 by rfl, ← Nat.pow_mul]
        · refine Memory.byte_writeAll_of_notMem s.mem fun w hw => ?_
          simp only [storeCells, List.mem_filter, List.mem_map, List.mem_range] at hw
          obtain ⟨⟨k, hkn, rfl⟩, hp⟩ := hw
          simp only [onFirstPage, hfirst, hb, beq_iff_eq] at hp
          show byteAddr s.cfg.xlen a k ≠ b
          rw [hb]
          exact (hne k hkn (by rw [hp, ha0])).symm
    · rw [State.refusedStore, if_neg hs]
      exact ⟨rfl, rfl, rfl, rfl, rfl, fun _ => rfl, fun _ => rfl, .inl rfl⟩

/-! ### Transfers -/

/-- Whether a target may be taken, as a proposition. -/
theorem targetOk_iff {s : State} {t : Word} : s.targetOk t = true ↔ s.Aligned t.toNat := by
  simp [State.targetOk, State.Aligned]

/-- A meaning that is `link`: the link value and the target. -/
theorem jumps_of_link {i : Instr} {s : State} {rd : Reg} {t : Word} {len : Nat} {L : Int} {T : Nat}
    (h : exec i s = s.link rd t len) (hT : t.toNat = T) (hlt : T < s.size)
    (hL : rd ≠ 0#5 → ((s.readPc.toNat : Int) + len) % s.size = L % s.size) : Jumps i s rd L T := by
  subst hT
  refine ⟨fun hal => ?_, fun hal => ?_⟩
  · refine ⟨((s.writeX rd (s.readPc + BitVec.ofNat 64 len)).jump t), h.trans ?_, fun hrd => ?_, ?_, ?_⟩
    · rw [State.link, State.transfer, if_pos (targetOk_iff.mpr hal)]
    · show (s.writeX rd _).U rd = _
      rw [U_writeX s _ hrd, ← hL hrd, BitVec.toNat_add, BitVec.toNat_ofNat]
      have hd : ((s.size : Nat) : Int) ∣ ((2 ^ 64 : Nat) : Int) := Int.natCast_dvd_natCast.mpr s.cfg.xlen.size_dvd
      push_cast
      push_cast at hd
      rw [Int.emod_emod_of_dvd _ hd, Int.add_emod, Int.emod_emod_of_dvd _ hd, ← Int.add_emod]
    · exact (onlyX_writeX s rd _).jump t
    · exact wentTo_jump t (by simp) (by simp) hlt
  · rw [TrapsWith, h, State.link, State.transfer, if_neg (fun hc => hal (targetOk_iff.mp hc))]
    simp [State.trap]

/-- A meaning that is `branch`. -/
theorem branches_of_branch {i : Instr} {s : State} {taken : Bool} {off : BitVec 12} {len : Nat} {P : Prop} {T : Nat}
    (h : exec i s = s.branch taken off len) (hP : P ↔ taken = true)
    (hT : (s.cfg.xlen.narrow (s.readPc + s.cfg.xlen.offset off)).toNat = T) : Branches i s P T len := by
  have hlt : T < s.size := hT ▸ Xlen.narrow_lt _ _
  refine ⟨fun hn => ?_, fun hp => ⟨fun hal => ?_, fun hal => ?_⟩⟩
  · refine ⟨s.retire len, h.trans ?_, (onlyX_refl s 0#5).retire len, advanced_retire len rfl rfl rfl⟩
    rw [State.branch, if_neg (fun hc => hn (hP.mpr hc))]
  · subst hT
    refine ⟨s.jump _, h.trans ?_, fun hc => absurd rfl hc, (onlyX_refl s 0#5).jump _, wentTo_jump _ rfl rfl hlt⟩
    rw [State.branch, if_pos (hP.mp hp), State.transfer, if_pos (targetOk_iff.mpr hal)]
    rfl
  · subst hT
    rw [TrapsWith, h, State.branch, if_pos (hP.mp hp), State.transfer, if_neg (fun hc => hal (targetOk_iff.mp hc))]
    exact congrArg _ (congrArg _ (by simp only [BitVec.ofNat_toNat, BitVec.setWidth_eq]))

/-- The target of a jump or a branch, from its offset. -/
theorem offset_target (s : State) {n : Nat} (off : BitVec n) (hn : n ≤ 20) :
    (s.cfg.xlen.narrow (s.readPc + s.cfg.xlen.offset off)).toNat = s.fromPc (off.toInt * 2) := by
  have ho : ((s.cfg.xlen.offset off).toNat : Int) = (off.toInt * 2) % (s.size : Nat) := by
    have h1 := s.cfg.xlen.sext_toNat (off ++ 0#1) (by omega)
    rw [Xlen.offset, h1]
    congr 1
    by_cases h0 : n = 0
    · subst h0
      simp [BitVec.of_length_zero]
    · simp [BitVec.toInt_append, h0]
      omega
  have hz : (0 : Int) < (s.size : Nat) := by exact_mod_cast s.cfg.xlen.size_pos
  apply Int.ofNat.inj
  show ((_ : Nat) : Int) = ((_ : Nat) : Int)
  rw [State.fromPc, Int.toNat_of_nonneg (Int.emod_nonneg _ (by omega)), Xlen.narrow_add_toNat]
  show (((s.readPc.toNat + _) % s.size : Nat) : Int) = _
  push_cast
  rw [ho, Int.add_emod_emod]

end Sys2Proof.Machine
end

