-- ==== Sys2Proof/Laws/PerInstr.lean ====
section
/-! SUPPORT. The family of statements made once per instruction: what each instruction is as bytes. -/

namespace Sys2Proof

/-- Neighbouring slices of a vector put together. -/
theorem slices_append {n : Nat} (w : BitVec n) (k a b : Nat) :
    w.extractLsb' (k + a) b ++ w.extractLsb' k a = w.extractLsb' k (b + a) := by
  refine BitVec.eq_of_getLsbD_eq fun i hi => ?_
  simp only [BitVec.getLsbD_append, BitVec.getLsbD_extractLsb', hi, decide_true, Bool.true_and]
  split
  · simp [*]
  · rw [show k + a + (i - a) = k + i by omega]; simp; intro _; omega

/-- A word whose first halfword starts a 32-bit instruction is read back whole from its bytes. -/
theorem parcelOfBytes_word (w : BitVec 32) (rest : List Byte) (h : w.extractLsb' 0 2 = 3#2) :
    parcelOfBytes ((Parcel.word w).bytes ++ rest) = some (.word w, rest) := by
  have h0 : w.extractLsb' 8 8 ++ w.extractLsb' 0 8 = w.extractLsb' 0 16 := slices_append w 0 8 8
  have h1 : w.extractLsb' 24 8 ++ w.extractLsb' 16 8 = w.extractLsb' 16 16 := slices_append w 16 8 8
  have h2 : w.extractLsb' 16 16 ++ w.extractLsb' 0 16 = w := by
    rw [slices_append w 0 16 16]; exact BitVec.extractLsb'_eq_self
  have h3 : isWordStart (w.extractLsb' 0 16) = true := by
    have : (w.extractLsb' 0 16).extractLsb' 0 2 = w.extractLsb' 0 2 := by
      refine BitVec.eq_of_getLsbD_eq fun i hi => ?_
      simp [hi]
    simp [isWordStart, this, h]
  simp [Parcel.bytes, parcelOfBytes, h0, h1, h2, h3, joinHalves]

/-- A halfword that starts no 32-bit instruction is read back from its bytes. -/
theorem parcelOfBytes_half (h : BitVec 16) (rest : List Byte) (hs : isWordStart h = false) :
    parcelOfBytes ((Parcel.half h).bytes ++ rest) = some (.half h, rest) := by
  have h0 : h.extractLsb' 8 8 ++ h.extractLsb' 0 8 = h := by
    rw [slices_append h 0 8 8]; exact BitVec.extractLsb'_eq_self
  simp [Parcel.bytes, parcelOfBytes, h0, hs]

theorem parcelOfBytes_encR (funct7 : BitVec 7) (funct3 : BitVec 3) (opcode : BitVec 7) (rd rs1 rs2 : BitVec 5)
    (rest : List Byte) (h : opcode.extractLsb' 0 2 = 3#2) :
    parcelOfBytes ((encR funct7 funct3 opcode rd rs1 rs2).bytes ++ rest) =
      some (encR funct7 funct3 opcode rd rs1 rs2, rest) := by
  refine parcelOfBytes_word _ rest (Eq.trans ?_ h)
  refine BitVec.eq_of_getLsbD_eq fun i hi => ?_
  have : (Fields.toWord { funct7, rs2, rs1, funct3, rd, opcode }).getLsbD i = opcode.getLsbD i := by
    refine (BitVec.getLsbD_append (x := funct7 ++ rs2 ++ rs1 ++ funct3 ++ rd) (y := opcode)).trans ?_
    simp [show i < 7 by omega]
  simp [hi, this]

theorem parcelOfBytes_encC (op : BitVec 2) (funct3 : BitVec 3) (b12 : BitVec 1) (mid : BitVec 2) (r1 : BitVec 3)
    (b65 : BitVec 2) (r2 : BitVec 3) (rest : List Byte) (h : op ≠ 3#2) :
    parcelOfBytes ((encC op funct3 b12 mid r1 b65 r2).bytes ++ rest) =
      some (encC op funct3 b12 mid r1 b65 r2, rest) := by
  refine parcelOfBytes_half _ rest ?_
  have : (CFields.toHalf { funct3, b12, mid, r1, b65, r2, op }).extractLsb' 0 2 = op := by
    refine BitVec.eq_of_getLsbD_eq fun i hi => ?_
    have : (CFields.toHalf { funct3, b12, mid, r1, b65, r2, op }).getLsbD i = op.getLsbD i := by
      refine (BitVec.getLsbD_append (x := funct3 ++ b12 ++ mid ++ r1 ++ b65 ++ r2) (y := op)).trans ?_
      simp [hi]
    simp [hi, this]
  simp [isWordStart, this, h]

end Sys2Proof

namespace Sys2Proof.Laws.ParcelShape

/-- The bytes of the instruction, whatever follows them, are read back as the instruction's own parcel and what
follows: its two low bits give its length, and its bytes lie lowest first (30_encoding.md R250, R251; 20_memory.md
R155). -/
def Statement (i : Instr) : Prop :=
  ∀ rest : List Byte, parcelOfBytes ((encode i).bytes ++ rest) = some (encode i, rest)

theorem lui (rd : Reg) (imm : BitVec 20) : Statement (.lui rd imm) :=
  fun rest => parcelOfBytes_encR _ _ _ _ _ _ rest (by decide)

theorem auipc (rd : Reg) (imm : BitVec 20) : Statement (.auipc rd imm) :=
  fun rest => parcelOfBytes_encR _ _ _ _ _ _ rest (by decide)

theorem addi (rd rs1 : Reg) (imm : BitVec 12) : Statement (.addi rd rs1 imm) :=
  fun rest => parcelOfBytes_encR _ _ _ _ _ _ rest (by decide)

theorem slti (rd rs1 : Reg) (imm : BitVec 12) : Statement (.slti rd rs1 imm) :=
  fun rest => parcelOfBytes_encR _ _ _ _ _ _ rest (by decide)

theorem sltiu (rd rs1 : Reg) (imm : BitVec 12) : Statement (.sltiu rd rs1 imm) :=
  fun rest => parcelOfBytes_encR _ _ _ _ _ _ rest (by decide)

theorem xori (rd rs1 : Reg) (imm : BitVec 12) : Statement (.xori rd rs1 imm) :=
  fun rest => parcelOfBytes_encR _ _ _ _ _ _ rest (by decide)

theorem ori (rd rs1 : Reg) (imm : BitVec 12) : Statement (.ori rd rs1 imm) :=
  fun rest => parcelOfBytes_encR _ _ _ _ _ _ rest (by decide)

theorem andi (rd rs1 : Reg) (imm : BitVec 12) : Statement (.andi rd rs1 imm) :=
  fun rest => parcelOfBytes_encR _ _ _ _ _ _ rest (by decide)

theorem slli (rd rs1 : Reg) (shamt : BitVec 6) : Statement (.slli rd rs1 shamt) :=
  fun rest => parcelOfBytes_encR _ _ _ _ _ _ rest (by decide)

theorem srli (rd rs1 : Reg) (shamt : BitVec 6) : Statement (.srli rd rs1 shamt) :=
  fun rest => parcelOfBytes_encR _ _ _ _ _ _ rest (by decide)

theorem srai (rd rs1 : Reg) (shamt : BitVec 6) : Statement (.srai rd rs1 shamt) :=
  fun rest => parcelOfBytes_encR _ _ _ _ _ _ rest (by decide)

theorem add (rd rs1 rs2 : Reg) : Statement (.add rd rs1 rs2) :=
  fun rest => parcelOfBytes_encR _ _ _ _ _ _ rest (by decide)

theorem sub (rd rs1 rs2 : Reg) : Statement (.sub rd rs1 rs2) :=
  fun rest => parcelOfBytes_encR _ _ _ _ _ _ rest (by decide)

theorem sll (rd rs1 rs2 : Reg) : Statement (.sll rd rs1 rs2) :=
  fun rest => parcelOfBytes_encR _ _ _ _ _ _ rest (by decide)

theorem slt (rd rs1 rs2 : Reg) : Statement (.slt rd rs1 rs2) :=
  fun rest => parcelOfBytes_encR _ _ _ _ _ _ rest (by decide)

theorem sltu (rd rs1 rs2 : Reg) : Statement (.sltu rd rs1 rs2) :=
  fun rest => parcelOfBytes_encR _ _ _ _ _ _ rest (by decide)

theorem xor (rd rs1 rs2 : Reg) : Statement (.xor rd rs1 rs2) :=
  fun rest => parcelOfBytes_encR _ _ _ _ _ _ rest (by decide)

theorem srl (rd rs1 rs2 : Reg) : Statement (.srl rd rs1 rs2) :=
  fun rest => parcelOfBytes_encR _ _ _ _ _ _ rest (by decide)

theorem sra (rd rs1 rs2 : Reg) : Statement (.sra rd rs1 rs2) :=
  fun rest => parcelOfBytes_encR _ _ _ _ _ _ rest (by decide)

theorem or (rd rs1 rs2 : Reg) : Statement (.or rd rs1 rs2) :=
  fun rest => parcelOfBytes_encR _ _ _ _ _ _ rest (by decide)

theorem and (rd rs1 rs2 : Reg) : Statement (.and rd rs1 rs2) :=
  fun rest => parcelOfBytes_encR _ _ _ _ _ _ rest (by decide)

theorem addiw (rd rs1 : Reg) (imm : BitVec 12) : Statement (.addiw rd rs1 imm) :=
  fun rest => parcelOfBytes_encR _ _ _ _ _ _ rest (by decide)

theorem slliw (rd rs1 : Reg) (shamt : BitVec 5) : Statement (.slliw rd rs1 shamt) :=
  fun rest => parcelOfBytes_encR _ _ _ _ _ _ rest (by decide)

theorem srliw (rd rs1 : Reg) (shamt : BitVec 5) : Statement (.srliw rd rs1 shamt) :=
  fun rest => parcelOfBytes_encR _ _ _ _ _ _ rest (by decide)

theorem sraiw (rd rs1 : Reg) (shamt : BitVec 5) : Statement (.sraiw rd rs1 shamt) :=
  fun rest => parcelOfBytes_encR _ _ _ _ _ _ rest (by decide)

theorem addw (rd rs1 rs2 : Reg) : Statement (.addw rd rs1 rs2) :=
  fun rest => parcelOfBytes_encR _ _ _ _ _ _ rest (by decide)

theorem subw (rd rs1 rs2 : Reg) : Statement (.subw rd rs1 rs2) :=
  fun rest => parcelOfBytes_encR _ _ _ _ _ _ rest (by decide)

theorem sllw (rd rs1 rs2 : Reg) : Statement (.sllw rd rs1 rs2) :=
  fun rest => parcelOfBytes_encR _ _ _ _ _ _ rest (by decide)

theorem srlw (rd rs1 rs2 : Reg) : Statement (.srlw rd rs1 rs2) :=
  fun rest => parcelOfBytes_encR _ _ _ _ _ _ rest (by decide)

theorem sraw (rd rs1 rs2 : Reg) : Statement (.sraw rd rs1 rs2) :=
  fun rest => parcelOfBytes_encR _ _ _ _ _ _ rest (by decide)

theorem jal (rd : Reg) (off : BitVec 20) : Statement (.jal rd off) :=
  fun rest => parcelOfBytes_encR _ _ _ _ _ _ rest (by decide)

theorem jalr (rd rs1 : Reg) (imm : BitVec 12) : Statement (.jalr rd rs1 imm) :=
  fun rest => parcelOfBytes_encR _ _ _ _ _ _ rest (by decide)

theorem beq (rs1 rs2 : Reg) (off : BitVec 12) : Statement (.beq rs1 rs2 off) :=
  fun rest => parcelOfBytes_encR _ _ _ _ _ _ rest (by decide)

theorem bne (rs1 rs2 : Reg) (off : BitVec 12) : Statement (.bne rs1 rs2 off) :=
  fun rest => parcelOfBytes_encR _ _ _ _ _ _ rest (by decide)

theorem blt (rs1 rs2 : Reg) (off : BitVec 12) : Statement (.blt rs1 rs2 off) :=
  fun rest => parcelOfBytes_encR _ _ _ _ _ _ rest (by decide)

theorem bge (rs1 rs2 : Reg) (off : BitVec 12) : Statement (.bge rs1 rs2 off) :=
  fun rest => parcelOfBytes_encR _ _ _ _ _ _ rest (by decide)

theorem bltu (rs1 rs2 : Reg) (off : BitVec 12) : Statement (.bltu rs1 rs2 off) :=
  fun rest => parcelOfBytes_encR _ _ _ _ _ _ rest (by decide)

theorem bgeu (rs1 rs2 : Reg) (off : BitVec 12) : Statement (.bgeu rs1 rs2 off) :=
  fun rest => parcelOfBytes_encR _ _ _ _ _ _ rest (by decide)

theorem lb (rd rs1 : Reg) (imm : BitVec 12) : Statement (.lb rd rs1 imm) :=
  fun rest => parcelOfBytes_encR _ _ _ _ _ _ rest (by decide)

theorem lh (rd rs1 : Reg) (imm : BitVec 12) : Statement (.lh rd rs1 imm) :=
  fun rest => parcelOfBytes_encR _ _ _ _ _ _ rest (by decide)

theorem lw (rd rs1 : Reg) (imm : BitVec 12) : Statement (.lw rd rs1 imm) :=
  fun rest => parcelOfBytes_encR _ _ _ _ _ _ rest (by decide)

theorem ld (rd rs1 : Reg) (imm : BitVec 12) : Statement (.ld rd rs1 imm) :=
  fun rest => parcelOfBytes_encR _ _ _ _ _ _ rest (by decide)

theorem lbu (rd rs1 : Reg) (imm : BitVec 12) : Statement (.lbu rd rs1 imm) :=
  fun rest => parcelOfBytes_encR _ _ _ _ _ _ rest (by decide)

theorem lhu (rd rs1 : Reg) (imm : BitVec 12) : Statement (.lhu rd rs1 imm) :=
  fun rest => parcelOfBytes_encR _ _ _ _ _ _ rest (by decide)

theorem lwu (rd rs1 : Reg) (imm : BitVec 12) : Statement (.lwu rd rs1 imm) :=
  fun rest => parcelOfBytes_encR _ _ _ _ _ _ rest (by decide)

theorem sb (rs1 rs2 : Reg) (imm : BitVec 12) : Statement (.sb rs1 rs2 imm) :=
  fun rest => parcelOfBytes_encR _ _ _ _ _ _ rest (by decide)

theorem sh (rs1 rs2 : Reg) (imm : BitVec 12) : Statement (.sh rs1 rs2 imm) :=
  fun rest => parcelOfBytes_encR _ _ _ _ _ _ rest (by decide)

theorem sw (rs1 rs2 : Reg) (imm : BitVec 12) : Statement (.sw rs1 rs2 imm) :=
  fun rest => parcelOfBytes_encR _ _ _ _ _ _ rest (by decide)

theorem sd (rs1 rs2 : Reg) (imm : BitVec 12) : Statement (.sd rs1 rs2 imm) :=
  fun rest => parcelOfBytes_encR _ _ _ _ _ _ rest (by decide)

theorem fence (fm pred succ : BitVec 4) (rs1 rd : Reg) : Statement (.fence fm pred succ rs1 rd) :=
  fun rest => parcelOfBytes_encR _ _ _ _ _ _ rest (by decide)

theorem fenceI (imm : BitVec 12) (rs1 rd : Reg) : Statement (.fenceI imm rs1 rd) :=
  fun rest => parcelOfBytes_encR _ _ _ _ _ _ rest (by decide)

theorem ecall : Statement .ecall :=
  fun rest => parcelOfBytes_encR _ _ _ _ _ _ rest (by decide)

theorem ebreak : Statement .ebreak :=
  fun rest => parcelOfBytes_encR _ _ _ _ _ _ rest (by decide)

theorem csrrw (rd rs1 : Reg) (csr : BitVec 12) : Statement (.csrrw rd rs1 csr) :=
  fun rest => parcelOfBytes_encR _ _ _ _ _ _ rest (by decide)

theorem csrrs (rd rs1 : Reg) (csr : BitVec 12) : Statement (.csrrs rd rs1 csr) :=
  fun rest => parcelOfBytes_encR _ _ _ _ _ _ rest (by decide)

theorem csrrc (rd rs1 : Reg) (csr : BitVec 12) : Statement (.csrrc rd rs1 csr) :=
  fun rest => parcelOfBytes_encR _ _ _ _ _ _ rest (by decide)

theorem csrrwi (rd : Reg) (uimm : BitVec 5) (csr : BitVec 12) : Statement (.csrrwi rd uimm csr) :=
  fun rest => parcelOfBytes_encR _ _ _ _ _ _ rest (by decide)

theorem csrrsi (rd : Reg) (uimm : BitVec 5) (csr : BitVec 12) : Statement (.csrrsi rd uimm csr) :=
  fun rest => parcelOfBytes_encR _ _ _ _ _ _ rest (by decide)

theorem csrrci (rd : Reg) (uimm : BitVec 5) (csr : BitVec 12) : Statement (.csrrci rd uimm csr) :=
  fun rest => parcelOfBytes_encR _ _ _ _ _ _ rest (by decide)

theorem mul (rd rs1 rs2 : Reg) : Statement (.mul rd rs1 rs2) :=
  fun rest => parcelOfBytes_encR _ _ _ _ _ _ rest (by decide)

theorem mulh (rd rs1 rs2 : Reg) : Statement (.mulh rd rs1 rs2) :=
  fun rest => parcelOfBytes_encR _ _ _ _ _ _ rest (by decide)

theorem mulhsu (rd rs1 rs2 : Reg) : Statement (.mulhsu rd rs1 rs2) :=
  fun rest => parcelOfBytes_encR _ _ _ _ _ _ rest (by decide)

theorem mulhu (rd rs1 rs2 : Reg) : Statement (.mulhu rd rs1 rs2) :=
  fun rest => parcelOfBytes_encR _ _ _ _ _ _ rest (by decide)

theorem div (rd rs1 rs2 : Reg) : Statement (.div rd rs1 rs2) :=
  fun rest => parcelOfBytes_encR _ _ _ _ _ _ rest (by decide)

theorem divu (rd rs1 rs2 : Reg) : Statement (.divu rd rs1 rs2) :=
  fun rest => parcelOfBytes_encR _ _ _ _ _ _ rest (by decide)

theorem rem (rd rs1 rs2 : Reg) : Statement (.rem rd rs1 rs2) :=
  fun rest => parcelOfBytes_encR _ _ _ _ _ _ rest (by decide)

theorem remu (rd rs1 rs2 : Reg) : Statement (.remu rd rs1 rs2) :=
  fun rest => parcelOfBytes_encR _ _ _ _ _ _ rest (by decide)

theorem mulw (rd rs1 rs2 : Reg) : Statement (.mulw rd rs1 rs2) :=
  fun rest => parcelOfBytes_encR _ _ _ _ _ _ rest (by decide)

theorem divw (rd rs1 rs2 : Reg) : Statement (.divw rd rs1 rs2) :=
  fun rest => parcelOfBytes_encR _ _ _ _ _ _ rest (by decide)

theorem divuw (rd rs1 rs2 : Reg) : Statement (.divuw rd rs1 rs2) :=
  fun rest => parcelOfBytes_encR _ _ _ _ _ _ rest (by decide)

theorem remw (rd rs1 rs2 : Reg) : Statement (.remw rd rs1 rs2) :=
  fun rest => parcelOfBytes_encR _ _ _ _ _ _ rest (by decide)

theorem remuw (rd rs1 rs2 : Reg) : Statement (.remuw rd rs1 rs2) :=
  fun rest => parcelOfBytes_encR _ _ _ _ _ _ rest (by decide)

theorem lrW (rd rs1 : Reg) (aq rl : Bool) : Statement (.lrW rd rs1 aq rl) :=
  fun rest => parcelOfBytes_encR _ _ _ _ _ _ rest (by decide)

theorem scW (rd rs1 rs2 : Reg) (aq rl : Bool) : Statement (.scW rd rs1 rs2 aq rl) :=
  fun rest => parcelOfBytes_encR _ _ _ _ _ _ rest (by decide)

theorem lrD (rd rs1 : Reg) (aq rl : Bool) : Statement (.lrD rd rs1 aq rl) :=
  fun rest => parcelOfBytes_encR _ _ _ _ _ _ rest (by decide)

theorem scD (rd rs1 rs2 : Reg) (aq rl : Bool) : Statement (.scD rd rs1 rs2 aq rl) :=
  fun rest => parcelOfBytes_encR _ _ _ _ _ _ rest (by decide)

theorem amoswapW (rd rs1 rs2 : Reg) (aq rl : Bool) : Statement (.amoswapW rd rs1 rs2 aq rl) :=
  fun rest => parcelOfBytes_encR _ _ _ _ _ _ rest (by decide)

theorem amoaddW (rd rs1 rs2 : Reg) (aq rl : Bool) : Statement (.amoaddW rd rs1 rs2 aq rl) :=
  fun rest => parcelOfBytes_encR _ _ _ _ _ _ rest (by decide)

theorem amoxorW (rd rs1 rs2 : Reg) (aq rl : Bool) : Statement (.amoxorW rd rs1 rs2 aq rl) :=
  fun rest => parcelOfBytes_encR _ _ _ _ _ _ rest (by decide)

theorem amoandW (rd rs1 rs2 : Reg) (aq rl : Bool) : Statement (.amoandW rd rs1 rs2 aq rl) :=
  fun rest => parcelOfBytes_encR _ _ _ _ _ _ rest (by decide)

theorem amoorW (rd rs1 rs2 : Reg) (aq rl : Bool) : Statement (.amoorW rd rs1 rs2 aq rl) :=
  fun rest => parcelOfBytes_encR _ _ _ _ _ _ rest (by decide)

theorem amominW (rd rs1 rs2 : Reg) (aq rl : Bool) : Statement (.amominW rd rs1 rs2 aq rl) :=
  fun rest => parcelOfBytes_encR _ _ _ _ _ _ rest (by decide)

theorem amomaxW (rd rs1 rs2 : Reg) (aq rl : Bool) : Statement (.amomaxW rd rs1 rs2 aq rl) :=
  fun rest => parcelOfBytes_encR _ _ _ _ _ _ rest (by decide)

theorem amominuW (rd rs1 rs2 : Reg) (aq rl : Bool) : Statement (.amominuW rd rs1 rs2 aq rl) :=
  fun rest => parcelOfBytes_encR _ _ _ _ _ _ rest (by decide)

theorem amomaxuW (rd rs1 rs2 : Reg) (aq rl : Bool) : Statement (.amomaxuW rd rs1 rs2 aq rl) :=
  fun rest => parcelOfBytes_encR _ _ _ _ _ _ rest (by decide)

theorem amoswapD (rd rs1 rs2 : Reg) (aq rl : Bool) : Statement (.amoswapD rd rs1 rs2 aq rl) :=
  fun rest => parcelOfBytes_encR _ _ _ _ _ _ rest (by decide)

theorem amoaddD (rd rs1 rs2 : Reg) (aq rl : Bool) : Statement (.amoaddD rd rs1 rs2 aq rl) :=
  fun rest => parcelOfBytes_encR _ _ _ _ _ _ rest (by decide)

theorem amoxorD (rd rs1 rs2 : Reg) (aq rl : Bool) : Statement (.amoxorD rd rs1 rs2 aq rl) :=
  fun rest => parcelOfBytes_encR _ _ _ _ _ _ rest (by decide)

theorem amoandD (rd rs1 rs2 : Reg) (aq rl : Bool) : Statement (.amoandD rd rs1 rs2 aq rl) :=
  fun rest => parcelOfBytes_encR _ _ _ _ _ _ rest (by decide)

theorem amoorD (rd rs1 rs2 : Reg) (aq rl : Bool) : Statement (.amoorD rd rs1 rs2 aq rl) :=
  fun rest => parcelOfBytes_encR _ _ _ _ _ _ rest (by decide)

theorem amominD (rd rs1 rs2 : Reg) (aq rl : Bool) : Statement (.amominD rd rs1 rs2 aq rl) :=
  fun rest => parcelOfBytes_encR _ _ _ _ _ _ rest (by decide)

theorem amomaxD (rd rs1 rs2 : Reg) (aq rl : Bool) : Statement (.amomaxD rd rs1 rs2 aq rl) :=
  fun rest => parcelOfBytes_encR _ _ _ _ _ _ rest (by decide)

theorem amominuD (rd rs1 rs2 : Reg) (aq rl : Bool) : Statement (.amominuD rd rs1 rs2 aq rl) :=
  fun rest => parcelOfBytes_encR _ _ _ _ _ _ rest (by decide)

theorem amomaxuD (rd rs1 rs2 : Reg) (aq rl : Bool) : Statement (.amomaxuD rd rs1 rs2 aq rl) :=
  fun rest => parcelOfBytes_encR _ _ _ _ _ _ rest (by decide)

theorem flw (rd : FReg) (rs1 : Reg) (imm : BitVec 12) : Statement (.flw rd rs1 imm) :=
  fun rest => parcelOfBytes_encR _ _ _ _ _ _ rest (by decide)

theorem fsw (rs1 : Reg) (rs2 : FReg) (imm : BitVec 12) : Statement (.fsw rs1 rs2 imm) :=
  fun rest => parcelOfBytes_encR _ _ _ _ _ _ rest (by decide)

theorem fmaddS (rd rs1 rs2 rs3 : FReg) (rm : BitVec 3) : Statement (.fmaddS rd rs1 rs2 rs3 rm) :=
  fun rest => parcelOfBytes_encR _ _ _ _ _ _ rest (by decide)

theorem fmsubS (rd rs1 rs2 rs3 : FReg) (rm : BitVec 3) : Statement (.fmsubS rd rs1 rs2 rs3 rm) :=
  fun rest => parcelOfBytes_encR _ _ _ _ _ _ rest (by decide)

theorem fnmsubS (rd rs1 rs2 rs3 : FReg) (rm : BitVec 3) : Statement (.fnmsubS rd rs1 rs2 rs3 rm) :=
  fun rest => parcelOfBytes_encR _ _ _ _ _ _ rest (by decide)

theorem fnmaddS (rd rs1 rs2 rs3 : FReg) (rm : BitVec 3) : Statement (.fnmaddS rd rs1 rs2 rs3 rm) :=
  fun rest => parcelOfBytes_encR _ _ _ _ _ _ rest (by decide)

theorem faddS (rd rs1 rs2 : FReg) (rm : BitVec 3) : Statement (.faddS rd rs1 rs2 rm) :=
  fun rest => parcelOfBytes_encR _ _ _ _ _ _ rest (by decide)

theorem fsubS (rd rs1 rs2 : FReg) (rm : BitVec 3) : Statement (.fsubS rd rs1 rs2 rm) :=
  fun rest => parcelOfBytes_encR _ _ _ _ _ _ rest (by decide)

theorem fmulS (rd rs1 rs2 : FReg) (rm : BitVec 3) : Statement (.fmulS rd rs1 rs2 rm) :=
  fun rest => parcelOfBytes_encR _ _ _ _ _ _ rest (by decide)

theorem fdivS (rd rs1 rs2 : FReg) (rm : BitVec 3) : Statement (.fdivS rd rs1 rs2 rm) :=
  fun rest => parcelOfBytes_encR _ _ _ _ _ _ rest (by decide)

theorem fsqrtS (rd rs1 : FReg) (rm : BitVec 3) : Statement (.fsqrtS rd rs1 rm) :=
  fun rest => parcelOfBytes_encR _ _ _ _ _ _ rest (by decide)

theorem fsgnjS (rd rs1 rs2 : FReg) : Statement (.fsgnjS rd rs1 rs2) :=
  fun rest => parcelOfBytes_encR _ _ _ _ _ _ rest (by decide)

theorem fsgnjnS (rd rs1 rs2 : FReg) : Statement (.fsgnjnS rd rs1 rs2) :=
  fun rest => parcelOfBytes_encR _ _ _ _ _ _ rest (by decide)

theorem fsgnjxS (rd rs1 rs2 : FReg) : Statement (.fsgnjxS rd rs1 rs2) :=
  fun rest => parcelOfBytes_encR _ _ _ _ _ _ rest (by decide)

theorem fminS (rd rs1 rs2 : FReg) : Statement (.fminS rd rs1 rs2) :=
  fun rest => parcelOfBytes_encR _ _ _ _ _ _ rest (by decide)

theorem fmaxS (rd rs1 rs2 : FReg) : Statement (.fmaxS rd rs1 rs2) :=
  fun rest => parcelOfBytes_encR _ _ _ _ _ _ rest (by decide)

theorem fleS (rd : Reg) (rs1 rs2 : FReg) : Statement (.fleS rd rs1 rs2) :=
  fun rest => parcelOfBytes_encR _ _ _ _ _ _ rest (by decide)

theorem fltS (rd : Reg) (rs1 rs2 : FReg) : Statement (.fltS rd rs1 rs2) :=
  fun rest => parcelOfBytes_encR _ _ _ _ _ _ rest (by decide)

theorem feqS (rd : Reg) (rs1 rs2 : FReg) : Statement (.feqS rd rs1 rs2) :=
  fun rest => parcelOfBytes_encR _ _ _ _ _ _ rest (by decide)

theorem fclassS (rd : Reg) (rs1 : FReg) : Statement (.fclassS rd rs1) :=
  fun rest => parcelOfBytes_encR _ _ _ _ _ _ rest (by decide)

theorem fcvtWS (rd : Reg) (rs1 : FReg) (rm : BitVec 3) : Statement (.fcvtWS rd rs1 rm) :=
  fun rest => parcelOfBytes_encR _ _ _ _ _ _ rest (by decide)

theorem fcvtSW (rd : FReg) (rs1 : Reg) (rm : BitVec 3) : Statement (.fcvtSW rd rs1 rm) :=
  fun rest => parcelOfBytes_encR _ _ _ _ _ _ rest (by decide)

theorem fcvtWuS (rd : Reg) (rs1 : FReg) (rm : BitVec 3) : Statement (.fcvtWuS rd rs1 rm) :=
  fun rest => parcelOfBytes_encR _ _ _ _ _ _ rest (by decide)

theorem fcvtSWu (rd : FReg) (rs1 : Reg) (rm : BitVec 3) : Statement (.fcvtSWu rd rs1 rm) :=
  fun rest => parcelOfBytes_encR _ _ _ _ _ _ rest (by decide)

theorem fcvtLS (rd : Reg) (rs1 : FReg) (rm : BitVec 3) : Statement (.fcvtLS rd rs1 rm) :=
  fun rest => parcelOfBytes_encR _ _ _ _ _ _ rest (by decide)

theorem fcvtSL (rd : FReg) (rs1 : Reg) (rm : BitVec 3) : Statement (.fcvtSL rd rs1 rm) :=
  fun rest => parcelOfBytes_encR _ _ _ _ _ _ rest (by decide)

theorem fcvtLuS (rd : Reg) (rs1 : FReg) (rm : BitVec 3) : Statement (.fcvtLuS rd rs1 rm) :=
  fun rest => parcelOfBytes_encR _ _ _ _ _ _ rest (by decide)

theorem fcvtSLu (rd : FReg) (rs1 : Reg) (rm : BitVec 3) : Statement (.fcvtSLu rd rs1 rm) :=
  fun rest => parcelOfBytes_encR _ _ _ _ _ _ rest (by decide)

theorem fmvXW (rd : Reg) (rs1 : FReg) : Statement (.fmvXW rd rs1) :=
  fun rest => parcelOfBytes_encR _ _ _ _ _ _ rest (by decide)

theorem fmvWX (rd : FReg) (rs1 : Reg) : Statement (.fmvWX rd rs1) :=
  fun rest => parcelOfBytes_encR _ _ _ _ _ _ rest (by decide)

theorem fld (rd : FReg) (rs1 : Reg) (imm : BitVec 12) : Statement (.fld rd rs1 imm) :=
  fun rest => parcelOfBytes_encR _ _ _ _ _ _ rest (by decide)

theorem fsd (rs1 : Reg) (rs2 : FReg) (imm : BitVec 12) : Statement (.fsd rs1 rs2 imm) :=
  fun rest => parcelOfBytes_encR _ _ _ _ _ _ rest (by decide)

theorem fmaddD (rd rs1 rs2 rs3 : FReg) (rm : BitVec 3) : Statement (.fmaddD rd rs1 rs2 rs3 rm) :=
  fun rest => parcelOfBytes_encR _ _ _ _ _ _ rest (by decide)

theorem fmsubD (rd rs1 rs2 rs3 : FReg) (rm : BitVec 3) : Statement (.fmsubD rd rs1 rs2 rs3 rm) :=
  fun rest => parcelOfBytes_encR _ _ _ _ _ _ rest (by decide)

theorem fnmsubD (rd rs1 rs2 rs3 : FReg) (rm : BitVec 3) : Statement (.fnmsubD rd rs1 rs2 rs3 rm) :=
  fun rest => parcelOfBytes_encR _ _ _ _ _ _ rest (by decide)

theorem fnmaddD (rd rs1 rs2 rs3 : FReg) (rm : BitVec 3) : Statement (.fnmaddD rd rs1 rs2 rs3 rm) :=
  fun rest => parcelOfBytes_encR _ _ _ _ _ _ rest (by decide)

theorem faddD (rd rs1 rs2 : FReg) (rm : BitVec 3) : Statement (.faddD rd rs1 rs2 rm) :=
  fun rest => parcelOfBytes_encR _ _ _ _ _ _ rest (by decide)

theorem fsubD (rd rs1 rs2 : FReg) (rm : BitVec 3) : Statement (.fsubD rd rs1 rs2 rm) :=
  fun rest => parcelOfBytes_encR _ _ _ _ _ _ rest (by decide)

theorem fmulD (rd rs1 rs2 : FReg) (rm : BitVec 3) : Statement (.fmulD rd rs1 rs2 rm) :=
  fun rest => parcelOfBytes_encR _ _ _ _ _ _ rest (by decide)

theorem fdivD (rd rs1 rs2 : FReg) (rm : BitVec 3) : Statement (.fdivD rd rs1 rs2 rm) :=
  fun rest => parcelOfBytes_encR _ _ _ _ _ _ rest (by decide)

theorem fsqrtD (rd rs1 : FReg) (rm : BitVec 3) : Statement (.fsqrtD rd rs1 rm) :=
  fun rest => parcelOfBytes_encR _ _ _ _ _ _ rest (by decide)

theorem fsgnjD (rd rs1 rs2 : FReg) : Statement (.fsgnjD rd rs1 rs2) :=
  fun rest => parcelOfBytes_encR _ _ _ _ _ _ rest (by decide)

theorem fsgnjnD (rd rs1 rs2 : FReg) : Statement (.fsgnjnD rd rs1 rs2) :=
  fun rest => parcelOfBytes_encR _ _ _ _ _ _ rest (by decide)

theorem fsgnjxD (rd rs1 rs2 : FReg) : Statement (.fsgnjxD rd rs1 rs2) :=
  fun rest => parcelOfBytes_encR _ _ _ _ _ _ rest (by decide)

theorem fminD (rd rs1 rs2 : FReg) : Statement (.fminD rd rs1 rs2) :=
  fun rest => parcelOfBytes_encR _ _ _ _ _ _ rest (by decide)

theorem fmaxD (rd rs1 rs2 : FReg) : Statement (.fmaxD rd rs1 rs2) :=
  fun rest => parcelOfBytes_encR _ _ _ _ _ _ rest (by decide)

theorem fleD (rd : Reg) (rs1 rs2 : FReg) : Statement (.fleD rd rs1 rs2) :=
  fun rest => parcelOfBytes_encR _ _ _ _ _ _ rest (by decide)

theorem fltD (rd : Reg) (rs1 rs2 : FReg) : Statement (.fltD rd rs1 rs2) :=
  fun rest => parcelOfBytes_encR _ _ _ _ _ _ rest (by decide)

theorem feqD (rd : Reg) (rs1 rs2 : FReg) : Statement (.feqD rd rs1 rs2) :=
  fun rest => parcelOfBytes_encR _ _ _ _ _ _ rest (by decide)

theorem fclassD (rd : Reg) (rs1 : FReg) : Statement (.fclassD rd rs1) :=
  fun rest => parcelOfBytes_encR _ _ _ _ _ _ rest (by decide)

theorem fcvtWD (rd : Reg) (rs1 : FReg) (rm : BitVec 3) : Statement (.fcvtWD rd rs1 rm) :=
  fun rest => parcelOfBytes_encR _ _ _ _ _ _ rest (by decide)

theorem fcvtDW (rd : FReg) (rs1 : Reg) (rm : BitVec 3) : Statement (.fcvtDW rd rs1 rm) :=
  fun rest => parcelOfBytes_encR _ _ _ _ _ _ rest (by decide)

theorem fcvtWuD (rd : Reg) (rs1 : FReg) (rm : BitVec 3) : Statement (.fcvtWuD rd rs1 rm) :=
  fun rest => parcelOfBytes_encR _ _ _ _ _ _ rest (by decide)

theorem fcvtDWu (rd : FReg) (rs1 : Reg) (rm : BitVec 3) : Statement (.fcvtDWu rd rs1 rm) :=
  fun rest => parcelOfBytes_encR _ _ _ _ _ _ rest (by decide)

theorem fcvtLD (rd : Reg) (rs1 : FReg) (rm : BitVec 3) : Statement (.fcvtLD rd rs1 rm) :=
  fun rest => parcelOfBytes_encR _ _ _ _ _ _ rest (by decide)

theorem fcvtDL (rd : FReg) (rs1 : Reg) (rm : BitVec 3) : Statement (.fcvtDL rd rs1 rm) :=
  fun rest => parcelOfBytes_encR _ _ _ _ _ _ rest (by decide)

theorem fcvtLuD (rd : Reg) (rs1 : FReg) (rm : BitVec 3) : Statement (.fcvtLuD rd rs1 rm) :=
  fun rest => parcelOfBytes_encR _ _ _ _ _ _ rest (by decide)

theorem fcvtDLu (rd : FReg) (rs1 : Reg) (rm : BitVec 3) : Statement (.fcvtDLu rd rs1 rm) :=
  fun rest => parcelOfBytes_encR _ _ _ _ _ _ rest (by decide)

theorem fcvtSD (rd rs1 : FReg) (rm : BitVec 3) : Statement (.fcvtSD rd rs1 rm) :=
  fun rest => parcelOfBytes_encR _ _ _ _ _ _ rest (by decide)

theorem fcvtDS (rd rs1 : FReg) (rm : BitVec 3) : Statement (.fcvtDS rd rs1 rm) :=
  fun rest => parcelOfBytes_encR _ _ _ _ _ _ rest (by decide)

theorem fmvXD (rd : Reg) (rs1 : FReg) : Statement (.fmvXD rd rs1) :=
  fun rest => parcelOfBytes_encR _ _ _ _ _ _ rest (by decide)

theorem fmvDX (rd : FReg) (rs1 : Reg) : Statement (.fmvDX rd rs1) :=
  fun rest => parcelOfBytes_encR _ _ _ _ _ _ rest (by decide)

theorem cAddi4spn (rdc : CReg) (nzuimm : BitVec 8) : Statement (.cAddi4spn rdc nzuimm) :=
  fun rest => parcelOfBytes_encC _ _ _ _ _ _ _ rest (by decide)

theorem cFld (rdc rs1c : CReg) (uimm : BitVec 5) : Statement (.cFld rdc rs1c uimm) :=
  fun rest => parcelOfBytes_encC _ _ _ _ _ _ _ rest (by decide)

theorem cLw (rdc rs1c : CReg) (uimm : BitVec 5) : Statement (.cLw rdc rs1c uimm) :=
  fun rest => parcelOfBytes_encC _ _ _ _ _ _ _ rest (by decide)

theorem cFlw (rdc rs1c : CReg) (uimm : BitVec 5) : Statement (.cFlw rdc rs1c uimm) :=
  fun rest => parcelOfBytes_encC _ _ _ _ _ _ _ rest (by decide)

theorem cLd (rdc rs1c : CReg) (uimm : BitVec 5) : Statement (.cLd rdc rs1c uimm) :=
  fun rest => parcelOfBytes_encC _ _ _ _ _ _ _ rest (by decide)

theorem cFsd (rs1c rs2c : CReg) (uimm : BitVec 5) : Statement (.cFsd rs1c rs2c uimm) :=
  fun rest => parcelOfBytes_encC _ _ _ _ _ _ _ rest (by decide)

theorem cSw (rs1c rs2c : CReg) (uimm : BitVec 5) : Statement (.cSw rs1c rs2c uimm) :=
  fun rest => parcelOfBytes_encC _ _ _ _ _ _ _ rest (by decide)

theorem cFsw (rs1c rs2c : CReg) (uimm : BitVec 5) : Statement (.cFsw rs1c rs2c uimm) :=
  fun rest => parcelOfBytes_encC _ _ _ _ _ _ _ rest (by decide)

theorem cSd (rs1c rs2c : CReg) (uimm : BitVec 5) : Statement (.cSd rs1c rs2c uimm) :=
  fun rest => parcelOfBytes_encC _ _ _ _ _ _ _ rest (by decide)

theorem cNop (imm : BitVec 6) : Statement (.cNop imm) :=
  fun rest => parcelOfBytes_encC _ _ _ _ _ _ _ rest (by decide)

theorem cAddi (rd : Reg) (imm : BitVec 6) : Statement (.cAddi rd imm) :=
  fun rest => parcelOfBytes_encC _ _ _ _ _ _ _ rest (by decide)

theorem cJal (off : BitVec 11) : Statement (.cJal off) :=
  fun rest => parcelOfBytes_encC _ _ _ _ _ _ _ rest (by decide)

theorem cAddiw (rd : Reg) (imm : BitVec 6) : Statement (.cAddiw rd imm) :=
  fun rest => parcelOfBytes_encC _ _ _ _ _ _ _ rest (by decide)

theorem cLi (rd : Reg) (imm : BitVec 6) : Statement (.cLi rd imm) :=
  fun rest => parcelOfBytes_encC _ _ _ _ _ _ _ rest (by decide)

theorem cAddi16sp (nzimm : BitVec 6) : Statement (.cAddi16sp nzimm) :=
  fun rest => parcelOfBytes_encC _ _ _ _ _ _ _ rest (by decide)

theorem cLui (rd : Reg) (nzimm : BitVec 6) : Statement (.cLui rd nzimm) :=
  fun rest => parcelOfBytes_encC _ _ _ _ _ _ _ rest (by decide)

theorem cSrli (rdc : CReg) (shamt : BitVec 6) : Statement (.cSrli rdc shamt) :=
  fun rest => parcelOfBytes_encC _ _ _ _ _ _ _ rest (by decide)

theorem cSrai (rdc : CReg) (shamt : BitVec 6) : Statement (.cSrai rdc shamt) :=
  fun rest => parcelOfBytes_encC _ _ _ _ _ _ _ rest (by decide)

theorem cAndi (rdc : CReg) (imm : BitVec 6) : Statement (.cAndi rdc imm) :=
  fun rest => parcelOfBytes_encC _ _ _ _ _ _ _ rest (by decide)

theorem cSub (rdc rs2c : CReg) : Statement (.cSub rdc rs2c) :=
  fun rest => parcelOfBytes_encC _ _ _ _ _ _ _ rest (by decide)

theorem cXor (rdc rs2c : CReg) : Statement (.cXor rdc rs2c) :=
  fun rest => parcelOfBytes_encC _ _ _ _ _ _ _ rest (by decide)

theorem cOr (rdc rs2c : CReg) : Statement (.cOr rdc rs2c) :=
  fun rest => parcelOfBytes_encC _ _ _ _ _ _ _ rest (by decide)

theorem cAnd (rdc rs2c : CReg) : Statement (.cAnd rdc rs2c) :=
  fun rest => parcelOfBytes_encC _ _ _ _ _ _ _ rest (by decide)

theorem cSubw (rdc rs2c : CReg) : Statement (.cSubw rdc rs2c) :=
  fun rest => parcelOfBytes_encC _ _ _ _ _ _ _ rest (by decide)

theorem cAddw (rdc rs2c : CReg) : Statement (.cAddw rdc rs2c) :=
  fun rest => parcelOfBytes_encC _ _ _ _ _ _ _ rest (by decide)

theorem cJ (off : BitVec 11) : Statement (.cJ off) :=
  fun rest => parcelOfBytes_encC _ _ _ _ _ _ _ rest (by decide)

theorem cBeqz (rs1c : CReg) (off : BitVec 8) : Statement (.cBeqz rs1c off) :=
  fun rest => parcelOfBytes_encC _ _ _ _ _ _ _ rest (by decide)

theorem cBnez (rs1c : CReg) (off : BitVec 8) : Statement (.cBnez rs1c off) :=
  fun rest => parcelOfBytes_encC _ _ _ _ _ _ _ rest (by decide)

theorem cSlli (rd : Reg) (shamt : BitVec 6) : Statement (.cSlli rd shamt) :=
  fun rest => parcelOfBytes_encC _ _ _ _ _ _ _ rest (by decide)

theorem cFldsp (rd : FReg) (uimm : BitVec 6) : Statement (.cFldsp rd uimm) :=
  fun rest => parcelOfBytes_encC _ _ _ _ _ _ _ rest (by decide)

theorem cLwsp (rd : Reg) (uimm : BitVec 6) : Statement (.cLwsp rd uimm) :=
  fun rest => parcelOfBytes_encC _ _ _ _ _ _ _ rest (by decide)

theorem cFlwsp (rd : FReg) (uimm : BitVec 6) : Statement (.cFlwsp rd uimm) :=
  fun rest => parcelOfBytes_encC _ _ _ _ _ _ _ rest (by decide)

theorem cLdsp (rd : Reg) (uimm : BitVec 6) : Statement (.cLdsp rd uimm) :=
  fun rest => parcelOfBytes_encC _ _ _ _ _ _ _ rest (by decide)

theorem cJr (rs1 : Reg) : Statement (.cJr rs1) :=
  fun rest => parcelOfBytes_encC _ _ _ _ _ _ _ rest (by decide)

theorem cMv (rd rs2 : Reg) : Statement (.cMv rd rs2) :=
  fun rest => parcelOfBytes_encC _ _ _ _ _ _ _ rest (by decide)

theorem cEbreak : Statement .cEbreak :=
  fun rest => parcelOfBytes_encC _ _ _ _ _ _ _ rest (by decide)

theorem cJalr (rs1 : Reg) : Statement (.cJalr rs1) :=
  fun rest => parcelOfBytes_encC _ _ _ _ _ _ _ rest (by decide)

theorem cAdd (rd rs2 : Reg) : Statement (.cAdd rd rs2) :=
  fun rest => parcelOfBytes_encC _ _ _ _ _ _ _ rest (by decide)

theorem cFsdsp (rs2 : FReg) (uimm : BitVec 6) : Statement (.cFsdsp rs2 uimm) :=
  fun rest => parcelOfBytes_encC _ _ _ _ _ _ _ rest (by decide)

theorem cSwsp (rs2 : Reg) (uimm : BitVec 6) : Statement (.cSwsp rs2 uimm) :=
  fun rest => parcelOfBytes_encC _ _ _ _ _ _ _ rest (by decide)

theorem cFswsp (rs2 : FReg) (uimm : BitVec 6) : Statement (.cFswsp rs2 uimm) :=
  fun rest => parcelOfBytes_encC _ _ _ _ _ _ _ rest (by decide)

theorem cSdsp (rs2 : Reg) (uimm : BitVec 6) : Statement (.cSdsp rs2 uimm) :=
  fun rest => parcelOfBytes_encC _ _ _ _ _ _ _ rest (by decide)

end Sys2Proof.Laws.ParcelShape
end

