-- ==== Sys2Proof/Laws/Shape.lean ====
section
/-! SUPPORT. Everything an instruction can do, said once: the shapes its outcome can take, and that every instruction
takes one of them. A claim about all instructions is a claim about each shape. -/

namespace Sys2Proof.Machine

/-- The outcomes of an instruction. -/
inductive Shape (i : Instr) (s : State) : Out → Prop
  /-- A trap that keeps the state. -/
  | trap (kind : TrapKind) (v : Word) : Shape i s (.next (s.trap kind v))
  /-- A refused store. -/
  | refused (a : Word) (n : Nat) (v : Word) (kind : TrapKind) (ha : a.toNat < s.size) (hn : n ≤ 8)
      (hr : s.refusal .write a n = some kind) : Shape i s (.next ((s.refusedStore a n v).trap kind a))
  /-- Only pc and instret advance. -/
  | plain (hh : i.callsHost = false) : Shape i s (.next (s.retire (encode i).len))
  /-- An integer register is written. -/
  | writeX (hh : i.callsHost = false) (rd : Reg) (v : Word) : Shape i s (.next ((s.writeX rd v).retire (encode i).len))
  /-- A floating-point register is written. -/
  | writeF (hh : i.callsHost = false) (rd : FReg) (v : BitVec 64) :
      Shape i s (.next ((s.writeF rd v).retire (encode i).len))
  /-- A floating-point register is written and flags accrue. -/
  | flagsF (hh : i.callsHost = false) (rd : FReg) (v : BitVec 64) (fl : FFlags) :
      Shape i s (.next (((s.writeF rd v).setFlags fl).retire (encode i).len))
  /-- An integer register is written and flags accrue. -/
  | flagsX (hh : i.callsHost = false) (rd : Reg) (v : Word) (fl : FFlags) :
      Shape i s (.next (((s.writeX rd v).setFlags fl).retire (encode i).len))
  /-- Memory is written. -/
  | store (hh : i.callsHost = false) (a : Word) (n : Nat) (v : Word) :
      Shape i s (.next ((s.storeValue a n v).retire (encode i).len))
  /-- Memory and an integer register are written. -/
  | amo (hh : i.callsHost = false) (a : Word) (n : Nat) (v : Word) (rd : Reg) (w : Word) :
      Shape i s (.next (((s.storeValue a n v).writeX rd w).retire (encode i).len))
  /-- A taken transfer, with its link. -/
  | jump (hh : i.callsHost = false) (ht : i.transfers = true) (rd : Reg) (v t : Word) (hok : s.targetOk t = true)
      (he : s.readPc.toNat % 2 = 0 → t.toNat % 2 = 0) : Shape i s (.next ((s.writeX rd v).jump t))
  /-- LR completes. -/
  | reserve (hh : i.callsHost = false) (hr : i.reserves = true) (r : Reservation) (ha : r.addr.toNat < s.size)
      (hal : r.addr.toNat % r.size.bytes = 0) (rd : Reg) (v : Word) :
      Shape i s (.next (({ s with reservation := some r }.writeX rd v).retire (encode i).len))
  /-- SC fails. -/
  | scFail (hh : i.callsHost = false) (hr : i.reserves = true) (rd : Reg) (v : Word) :
      Shape i s (.next (({ s with reservation := none }.writeX rd v).retire (encode i).len))
  /-- SC succeeds. -/
  | scStore (hh : i.callsHost = false) (hr : i.reserves = true) (a : Word) (n : Nat) (v : Word) (rd : Reg) (w : Word) :
      Shape i s (.next ((({ s with reservation := none }.storeValue a n v).writeX rd w).retire (encode i).len))
  /-- The write of SC is refused. -/
  | scRefused (hr : i.conditional = true) (a : Word) (n : Nat) (v : Word) (kind : TrapKind) (ha : a.toNat < s.size)
      (hn : n ≤ 8) (hf : s.refusal .write a n = some kind) :
      Shape i s (.next (({ s with reservation := none }.refusedStore a n v).trap kind a))
  /-- A CSR is read. -/
  | csrRead (hh : i.callsHost = false) (hc : i.accessesCsr = true) (c : Csr) (rd : Reg) (v : Word) :
      Shape i s (.next (((s.csrDrawn c).writeX rd v).retire (encode i).len))
  /-- A CSR is read and written. -/
  | csrWrite (hh : i.callsHost = false) (hc : i.accessesCsr = true) (c : Csr) (w : Word) (rd : Reg) (v : Word) :
      Shape i s (.next (((s.csrWrite c w).writeX rd v).retire (encode i).len))
  /-- A host callback returns normally. -/
  | host (hh : i.callsHost = true) (acts : List HostAction) :
      Shape i s (.next (({ s with draws := s.draws + 1 }.hostActs acts).retire (encode i).len))
  /-- A host callback reports a fatal kind. -/
  | hostFatal (hh : i.callsHost = true) (acts : List HostAction) (kind : TrapKind) (v : Word) :
      Shape i s (.next (({ s with draws := s.draws + 1 }.hostActs acts).trap kind v))

variable {i : Instr} {s : State} {len : Nat}

/-! ### One lemma per shared operation -/

theorem shape_setX (hh : i.callsHost = false) (hl : (encode i).len = len) (rd : Reg) (v : Word) :
    Shape i s (s.setX rd v len) := by
  subst hl
  exact .writeX hh rd v

theorem shape_setF (hh : i.callsHost = false) (hl : (encode i).len = len) (rd : FReg) (v : BitVec 64) :
    Shape i s (s.setF rd v len) := by
  subst hl
  exact .writeF hh rd v

theorem shape_setS (hh : i.callsHost = false) (hl : (encode i).len = 4) (rd : FReg) (r : FRes) :
    Shape i s (s.setS rd r) := by
  unfold State.setS
  rw [← hl]
  exact .flagsF hh rd _ r.flags

theorem shape_setD (hh : i.callsHost = false) (hl : (encode i).len = 4) (rd : FReg) (r : FRes) :
    Shape i s (s.setD rd r) := by
  unfold State.setD
  rw [← hl]
  exact .flagsF hh rd _ r.flags

theorem shape_setCmp (hh : i.callsHost = false) (hl : (encode i).len = 4) (rd : Reg) (r : FRes) :
    Shape i s (s.setCmp rd r) := by
  unfold State.setCmp
  rw [← hl]
  exact .flagsX hh rd _ r.flags

theorem shape_setInt32 (hh : i.callsHost = false) (hl : (encode i).len = 4) (rd : Reg) (r : IntRes) :
    Shape i s (s.setInt32 rd r) := by
  unfold State.setInt32
  rw [← hl]
  exact .flagsX hh rd _ r.flags

theorem shape_setInt64 (hh : i.callsHost = false) (hl : (encode i).len = 4) (rd : Reg) (r : IntRes) :
    Shape i s (s.setInt64 rd r) := by
  unfold State.setInt64
  rw [← hl]
  exact .flagsX hh rd _ r.flags

theorem shape_withRead {a : Word} {n : Nat} {k : Word → Out} (h : ∀ v, Shape i s (k v)) :
    Shape i s (s.withRead a n k) := by
  rcases s.withRead_cases a n k with ⟨kind, -, h'⟩ | ⟨-, h'⟩ <;> rw [h']
  · exact .trap kind a
  · exact h _

theorem shape_withWrite {a : Word} {n : Nat} {v : Word} {k : State → Out} (ha : a.toNat < s.size) (hn : n ≤ 8)
    (h : Shape i s (k (s.storeValue a n v))) : Shape i s (s.withWrite a n v k) := by
  rcases s.withWrite_cases a n v k with ⟨kind, hr, h'⟩ | ⟨-, h'⟩ <;> rw [h']
  · exact .refused a n v kind ha hn hr
  · exact h

theorem shape_load {n : Nat} {ext : Word → Word} (hh : i.callsHost = false) (hl : (encode i).len = len) (rd rs1 : Reg)
    (imm : BitVec 12) : Shape i s (s.load n ext rd rs1 imm len) := shape_withRead fun _ => shape_setX hh hl rd _

theorem shape_loadF {n : Nat} {box : Word → BitVec 64} (hh : i.callsHost = false) (hl : (encode i).len = len)
    (rd : FReg) (rs1 : Reg) (imm : BitVec 12) : Shape i s (s.loadF n box rd rs1 imm len) :=
  shape_withRead fun _ => shape_setF hh hl rd _

theorem shape_store {n : Nat} (hn : n ≤ 8) (hh : i.callsHost = false) (hl : (encode i).len = len) (rs1 rs2 : Reg)
    (imm : BitVec 12) : Shape i s (s.store n rs1 rs2 imm len) := by
  subst hl
  exact shape_withWrite (address_lt _ _ _) hn (.store hh _ _ _)

theorem shape_storeF {n : Nat} (hn : n ≤ 8) (hh : i.callsHost = false) (hl : (encode i).len = len) (rs1 : Reg)
    (rs2 : FReg) (imm : BitVec 12) : Shape i s (s.storeF n rs1 rs2 imm len) := by
  subst hl
  exact shape_withWrite (address_lt _ _ _) hn (.store hh _ _ _)

theorem shape_withAligned {a : Word} {n : Nat} {k : Out} (h : a.toNat % n = 0 → Shape i s k) :
    Shape i s (s.withAligned a n k) := by
  rcases s.withAligned_cases a n k with ⟨-, h'⟩ | ⟨ha, h'⟩ <;> rw [h']
  · exact .trap _ _
  · exact h ha

theorem shape_withRounding {rm : BitVec 3} {bits : Word} {k : RoundingMode → Out} (h : ∀ m, Shape i s (k m)) :
    Shape i s (s.withRounding rm bits k) := by
  rcases s.withRounding_cases rm bits k with ⟨-, h'⟩ | ⟨m, -, h'⟩ <;> rw [h']
  · exact .trap _ _
  · exact h m

theorem even_narrow (xl : Xlen) (v : Word) (h : v.toNat % 2 = 0) : (xl.narrow v).toNat % 2 = 0 := by
  rw [Xlen.narrow_toNat]
  cases xl <;> simp only [Xlen.bits] <;> omega

/-- The target an even offset names from an even pc is even. -/
theorem even_offset (hpc : s.readPc.toNat % 2 = 0) {n : Nat} (off : BitVec n) :
    (s.cfg.xlen.narrow (s.readPc + s.cfg.xlen.offset off)).toNat % 2 = 0 := by
  refine even_narrow _ _ ?_
  have ho : (s.cfg.xlen.offset off).toNat % 2 = 0 := by
    refine even_narrow _ _ ?_
    have h0 : ((off ++ 0#1).signExtend 64).getLsbD 0 = false := by
      rw [BitVec.getLsbD_signExtend]
      have : (off ++ 0#1).getLsbD 0 = false := (BitVec.getLsbD_append (x := off) (y := 0#1)).trans (by simp)
      rw [this]
      simp
    rw [BitVec.getLsbD, Nat.testBit_zero] at h0
    simpa using h0
  rw [BitVec.toNat_add]
  omega

theorem even_jalrTarget (rs1 : Reg) (imm : BitVec 12) : (s.jalrTarget rs1 imm).toNat % 2 = 0 := by
  have h0 : (s.jalrTarget rs1 imm).getLsbD 0 = false := by
    simp [State.jalrTarget]
  rw [BitVec.getLsbD, Nat.testBit_zero] at h0
  simpa using h0

theorem shape_link (hh : i.callsHost = false) (ht : i.transfers = true) (rd : Reg) (t : Word)
    (he : s.readPc.toNat % 2 = 0 → t.toNat % 2 = 0) : Shape i s (s.link rd t len) := by
  unfold State.link
  rcases s.transfer_cases t fun u => u.writeX rd (s.readPc + BitVec.ofNat 64 len) with ⟨-, h'⟩ | ⟨hok, h'⟩ <;> rw [h']
  · exact .trap _ _
  · exact .jump hh ht rd _ t hok he

theorem shape_branch (hh : i.callsHost = false) (ht : i.transfers = true) (hl : (encode i).len = len) (taken : Bool)
    (off : BitVec 12) : Shape i s (s.branch taken off len) := by
  subst hl
  rcases s.branch_cases taken off (encode i).len with ⟨-, h'⟩ | ⟨-, h'⟩ <;> rw [h']
  · exact .plain hh
  · rcases s.transfer_cases (s.cfg.xlen.narrow (s.readPc + s.cfg.xlen.offset off)) id with ⟨-, h'⟩ | ⟨hok, h'⟩ <;> rw [h']
    · exact .trap _ _
    · exact .jump hh ht 0#5 0#64 _ hok fun hpc => even_offset hpc off

theorem shape_csrOp (hh : i.callsHost = false) (hc : i.accessesCsr = true) (hl : (encode i).len = 4) (bits : Word)
    (num : CsrNum) (rd : Reg) (f : Option (Word → Word)) : Shape i s (s.csrOp bits num rd f) := by
  rcases s.csrOp_cases bits num rd f with h | ⟨c, -, -, h⟩ | ⟨c, g, -, -, -, h⟩ <;> rw [h]
  · exact .trap _ _
  · exact hl ▸ .csrRead hh hc c rd _
  · exact hl ▸ .csrWrite hh hc c _ rd _

theorem shape_hostCall (hh : i.callsHost = true) (hl : (encode i).len = len) (call : HostCall) :
    Shape i s (s.hostCall call len) := by
  subst hl
  obtain ⟨acts, h | ⟨k, v, h⟩⟩ := s.hostCall_cases call (encode i).len <;> rw [h]
  · exact .host hh acts
  · exact .hostFatal hh acts k v

theorem shape_ecall (hh : i.callsHost = true) (hl : (encode i).len = len) : Shape i s (s.ecall len) := by
  unfold State.ecall
  split
  · exact shape_hostCall hh hl _
  · exact .trap _ _

theorem shape_ebreak (hh : i.callsHost = true) (hl : (encode i).len = len) (bits : Word) :
    Shape i s (s.ebreak bits len) := by
  unfold State.ebreak
  split
  · exact shape_hostCall hh hl _
  · exact .trap _ _

theorem shape_loadReserved (hh : i.callsHost = false) (hr : i.reserves = true) (hl : (encode i).len = 4) (sz : ResSize)
    (rd rs1 : Reg) : Shape i s (s.loadReserved sz rd rs1) :=
  shape_withAligned fun ha => shape_withRead fun _ => hl ▸ .reserve hh hr _ (s.readX_lt rs1) ha rd _

theorem ResSize.bytes_le (sz : ResSize) : sz.bytes ≤ 8 := by cases sz <;> decide

theorem shape_storeConditional (hh : i.callsHost = false) (hr : i.reserves = true) (hc : i.conditional = true)
    (hl : (encode i).len = 4) (sz : ResSize) (rd rs1 rs2 : Reg) : Shape i s (s.storeConditional sz rd rs1 rs2) := by
  refine shape_withAligned fun _ => ?_
  split
  · rcases State.withWrite_cases { s with reservation := none } (s.readX rs1) sz.bytes (s.readX rs2)
      (fun t => t.setX rd 0 4) with ⟨kind, hf, h'⟩ | ⟨-, h'⟩ <;> rw [h']
    · exact .scRefused hc _ _ _ kind (s.readX_lt rs1) sz.bytes_le hf
    · exact hl ▸ .scStore hh hr _ _ _ rd _
  · exact hl ▸ .scFail hh hr rd _

theorem shape_amo (hh : i.callsHost = false) (hl : (encode i).len = 4) (sz : ResSize) (op : WidthOp)
    (rd rs1 rs2 : Reg) : Shape i s (s.amo sz op rd rs1 rs2) :=
  shape_withAligned fun _ => shape_withRead fun _ =>
    shape_withWrite (s.readX_lt rs1) sz.bytes_le (hl ▸ .amo hh _ _ _ rd _)

/-- EVERYTHING AN INSTRUCTION CAN DO. -/
theorem exec_shape (i : Instr) (s : State) : Shape i s (exec i s) := by
  cases i with
  | lui _ _ => exact shape_setX rfl rfl _ _
  | auipc _ _ => exact shape_setX rfl rfl _ _
  | addi _ _ _ => exact shape_setX rfl rfl _ _
  | slti _ _ _ => exact shape_setX rfl rfl _ _
  | sltiu _ _ _ => exact shape_setX rfl rfl _ _
  | xori _ _ _ => exact shape_setX rfl rfl _ _
  | ori _ _ _ => exact shape_setX rfl rfl _ _
  | andi _ _ _ => exact shape_setX rfl rfl _ _
  | slli _ _ _ => exact shape_setX rfl rfl _ _
  | srli _ _ _ => exact shape_setX rfl rfl _ _
  | srai _ _ _ => exact shape_setX rfl rfl _ _
  | add _ _ _ => exact shape_setX rfl rfl _ _
  | sub _ _ _ => exact shape_setX rfl rfl _ _
  | sll _ _ _ => exact shape_setX rfl rfl _ _
  | slt _ _ _ => exact shape_setX rfl rfl _ _
  | sltu _ _ _ => exact shape_setX rfl rfl _ _
  | xor _ _ _ => exact shape_setX rfl rfl _ _
  | srl _ _ _ => exact shape_setX rfl rfl _ _
  | sra _ _ _ => exact shape_setX rfl rfl _ _
  | or _ _ _ => exact shape_setX rfl rfl _ _
  | and _ _ _ => exact shape_setX rfl rfl _ _
  | addiw _ _ _ => exact shape_setX rfl rfl _ _
  | slliw _ _ _ => exact shape_setX rfl rfl _ _
  | srliw _ _ _ => exact shape_setX rfl rfl _ _
  | sraiw _ _ _ => exact shape_setX rfl rfl _ _
  | addw _ _ _ => exact shape_setX rfl rfl _ _
  | subw _ _ _ => exact shape_setX rfl rfl _ _
  | sllw _ _ _ => exact shape_setX rfl rfl _ _
  | srlw _ _ _ => exact shape_setX rfl rfl _ _
  | sraw _ _ _ => exact shape_setX rfl rfl _ _
  | jal _ _ => exact shape_link rfl rfl _ _ fun hpc => even_offset hpc _
  | jalr _ _ _ => exact shape_link rfl rfl _ _ fun _ => even_jalrTarget _ _
  | beq _ _ _ => exact shape_branch rfl rfl rfl _ _
  | bne _ _ _ => exact shape_branch rfl rfl rfl _ _
  | blt _ _ _ => exact shape_branch rfl rfl rfl _ _
  | bge _ _ _ => exact shape_branch rfl rfl rfl _ _
  | bltu _ _ _ => exact shape_branch rfl rfl rfl _ _
  | bgeu _ _ _ => exact shape_branch rfl rfl rfl _ _
  | lb _ _ _ => exact shape_load rfl rfl _ _ _
  | lh _ _ _ => exact shape_load rfl rfl _ _ _
  | lw _ _ _ => exact shape_load rfl rfl _ _ _
  | ld _ _ _ => exact shape_load rfl rfl _ _ _
  | lbu _ _ _ => exact shape_load rfl rfl _ _ _
  | lhu _ _ _ => exact shape_load rfl rfl _ _ _
  | lwu _ _ _ => exact shape_load rfl rfl _ _ _
  | sb _ _ _ => exact shape_store (by decide) rfl rfl _ _ _
  | sh _ _ _ => exact shape_store (by decide) rfl rfl _ _ _
  | sw _ _ _ => exact shape_store (by decide) rfl rfl _ _ _
  | sd _ _ _ => exact shape_store (by decide) rfl rfl _ _ _
  | fence _ _ _ _ _ => exact .plain rfl
  | fenceI _ _ _ => exact .plain rfl
  | ecall => exact shape_ecall rfl rfl
  | ebreak => exact shape_ebreak rfl rfl _
  | csrrw rd rs1 csr => exact shape_csrOp (i := .csrrw rd rs1 csr) rfl rfl rfl _ _ _ (some fun _ => s.readX rs1)
  | csrrs rd rs1 csr => exact shape_csrOp (i := .csrrs rd rs1 csr) rfl rfl rfl _ _ _ (_)
  | csrrc rd rs1 csr => exact shape_csrOp (i := .csrrc rd rs1 csr) rfl rfl rfl _ _ _ (_)
  | csrrwi rd uimm csr => exact shape_csrOp (i := .csrrwi rd uimm csr) rfl rfl rfl _ _ _ (some fun _ => uimm.setWidth 64)
  | csrrsi rd uimm csr => exact shape_csrOp (i := .csrrsi rd uimm csr) rfl rfl rfl _ _ _ (_)
  | csrrci rd uimm csr => exact shape_csrOp (i := .csrrci rd uimm csr) rfl rfl rfl _ _ _ (_)
  | mul _ _ _ => exact shape_setX rfl rfl _ _
  | mulh _ _ _ => exact shape_setX rfl rfl _ _
  | mulhsu _ _ _ => exact shape_setX rfl rfl _ _
  | mulhu _ _ _ => exact shape_setX rfl rfl _ _
  | div _ _ _ => exact shape_setX rfl rfl _ _
  | divu _ _ _ => exact shape_setX rfl rfl _ _
  | rem _ _ _ => exact shape_setX rfl rfl _ _
  | remu _ _ _ => exact shape_setX rfl rfl _ _
  | mulw _ _ _ => exact shape_setX rfl rfl _ _
  | divw _ _ _ => exact shape_setX rfl rfl _ _
  | divuw _ _ _ => exact shape_setX rfl rfl _ _
  | remw _ _ _ => exact shape_setX rfl rfl _ _
  | remuw _ _ _ => exact shape_setX rfl rfl _ _
  | lrW _ _ _ _ => exact shape_loadReserved rfl rfl rfl _ _ _
  | scW _ _ _ _ _ => exact shape_storeConditional rfl rfl rfl rfl _ _ _ _
  | lrD _ _ _ _ => exact shape_loadReserved rfl rfl rfl _ _ _
  | scD _ _ _ _ _ => exact shape_storeConditional rfl rfl rfl rfl _ _ _ _
  | amoswapW _ _ _ _ _ => exact shape_amo rfl rfl _ _ _ _ _
  | amoaddW _ _ _ _ _ => exact shape_amo rfl rfl _ _ _ _ _
  | amoxorW _ _ _ _ _ => exact shape_amo rfl rfl _ _ _ _ _
  | amoandW _ _ _ _ _ => exact shape_amo rfl rfl _ _ _ _ _
  | amoorW _ _ _ _ _ => exact shape_amo rfl rfl _ _ _ _ _
  | amominW _ _ _ _ _ => exact shape_amo rfl rfl _ _ _ _ _
  | amomaxW _ _ _ _ _ => exact shape_amo rfl rfl _ _ _ _ _
  | amominuW _ _ _ _ _ => exact shape_amo rfl rfl _ _ _ _ _
  | amomaxuW _ _ _ _ _ => exact shape_amo rfl rfl _ _ _ _ _
  | amoswapD _ _ _ _ _ => exact shape_amo rfl rfl _ _ _ _ _
  | amoaddD _ _ _ _ _ => exact shape_amo rfl rfl _ _ _ _ _
  | amoxorD _ _ _ _ _ => exact shape_amo rfl rfl _ _ _ _ _
  | amoandD _ _ _ _ _ => exact shape_amo rfl rfl _ _ _ _ _
  | amoorD _ _ _ _ _ => exact shape_amo rfl rfl _ _ _ _ _
  | amominD _ _ _ _ _ => exact shape_amo rfl rfl _ _ _ _ _
  | amomaxD _ _ _ _ _ => exact shape_amo rfl rfl _ _ _ _ _
  | amominuD _ _ _ _ _ => exact shape_amo rfl rfl _ _ _ _ _
  | amomaxuD _ _ _ _ _ => exact shape_amo rfl rfl _ _ _ _ _
  | flw _ _ _ => exact shape_loadF rfl rfl _ _ _
  | fsw _ _ _ => exact shape_storeF (by decide) rfl rfl _ _ _
  | fmaddS _ _ _ _ _ => exact shape_withRounding fun _ => shape_setS rfl rfl _ _
  | fmsubS _ _ _ _ _ => exact shape_withRounding fun _ => shape_setS rfl rfl _ _
  | fnmsubS _ _ _ _ _ => exact shape_withRounding fun _ => shape_setS rfl rfl _ _
  | fnmaddS _ _ _ _ _ => exact shape_withRounding fun _ => shape_setS rfl rfl _ _
  | faddS _ _ _ _ => exact shape_withRounding fun _ => shape_setS rfl rfl _ _
  | fsubS _ _ _ _ => exact shape_withRounding fun _ => shape_setS rfl rfl _ _
  | fmulS _ _ _ _ => exact shape_withRounding fun _ => shape_setS rfl rfl _ _
  | fdivS _ _ _ _ => exact shape_withRounding fun _ => shape_setS rfl rfl _ _
  | fsqrtS _ _ _ => exact shape_withRounding fun _ => shape_setS rfl rfl _ _
  | fsgnjS _ _ _ => exact shape_setF rfl rfl _ _
  | fsgnjnS _ _ _ => exact shape_setF rfl rfl _ _
  | fsgnjxS _ _ _ => exact shape_setF rfl rfl _ _
  | fminS _ _ _ => exact shape_setS rfl rfl _ _
  | fmaxS _ _ _ => exact shape_setS rfl rfl _ _
  | fleS _ _ _ => exact shape_setCmp rfl rfl _ _
  | fltS _ _ _ => exact shape_setCmp rfl rfl _ _
  | feqS _ _ _ => exact shape_setCmp rfl rfl _ _
  | fclassS _ _ => exact shape_setX rfl rfl _ _
  | fcvtWS _ _ _ => exact shape_withRounding fun _ => shape_setInt32 rfl rfl _ _
  | fcvtSW _ _ _ => exact shape_withRounding fun _ => shape_setS rfl rfl _ _
  | fcvtWuS _ _ _ => exact shape_withRounding fun _ => shape_setInt32 rfl rfl _ _
  | fcvtSWu _ _ _ => exact shape_withRounding fun _ => shape_setS rfl rfl _ _
  | fcvtLS _ _ _ => exact shape_withRounding fun _ => shape_setInt64 rfl rfl _ _
  | fcvtSL _ _ _ => exact shape_withRounding fun _ => shape_setS rfl rfl _ _
  | fcvtLuS _ _ _ => exact shape_withRounding fun _ => shape_setInt64 rfl rfl _ _
  | fcvtSLu _ _ _ => exact shape_withRounding fun _ => shape_setS rfl rfl _ _
  | fmvXW _ _ => exact shape_setX rfl rfl _ _
  | fmvWX _ _ => exact shape_setF rfl rfl _ _
  | fld _ _ _ => exact shape_loadF rfl rfl _ _ _
  | fsd _ _ _ => exact shape_storeF (by decide) rfl rfl _ _ _
  | fmaddD _ _ _ _ _ => exact shape_withRounding fun _ => shape_setD rfl rfl _ _
  | fmsubD _ _ _ _ _ => exact shape_withRounding fun _ => shape_setD rfl rfl _ _
  | fnmsubD _ _ _ _ _ => exact shape_withRounding fun _ => shape_setD rfl rfl _ _
  | fnmaddD _ _ _ _ _ => exact shape_withRounding fun _ => shape_setD rfl rfl _ _
  | faddD _ _ _ _ => exact shape_withRounding fun _ => shape_setD rfl rfl _ _
  | fsubD _ _ _ _ => exact shape_withRounding fun _ => shape_setD rfl rfl _ _
  | fmulD _ _ _ _ => exact shape_withRounding fun _ => shape_setD rfl rfl _ _
  | fdivD _ _ _ _ => exact shape_withRounding fun _ => shape_setD rfl rfl _ _
  | fsqrtD _ _ _ => exact shape_withRounding fun _ => shape_setD rfl rfl _ _
  | fsgnjD _ _ _ => exact shape_setF rfl rfl _ _
  | fsgnjnD _ _ _ => exact shape_setF rfl rfl _ _
  | fsgnjxD _ _ _ => exact shape_setF rfl rfl _ _
  | fminD _ _ _ => exact shape_setD rfl rfl _ _
  | fmaxD _ _ _ => exact shape_setD rfl rfl _ _
  | fleD _ _ _ => exact shape_setCmp rfl rfl _ _
  | fltD _ _ _ => exact shape_setCmp rfl rfl _ _
  | feqD _ _ _ => exact shape_setCmp rfl rfl _ _
  | fclassD _ _ => exact shape_setX rfl rfl _ _
  | fcvtWD _ _ _ => exact shape_withRounding fun _ => shape_setInt32 rfl rfl _ _
  | fcvtDW _ _ _ => exact shape_withRounding fun _ => shape_setD rfl rfl _ _
  | fcvtWuD _ _ _ => exact shape_withRounding fun _ => shape_setInt32 rfl rfl _ _
  | fcvtDWu _ _ _ => exact shape_withRounding fun _ => shape_setD rfl rfl _ _
  | fcvtLD _ _ _ => exact shape_withRounding fun _ => shape_setInt64 rfl rfl _ _
  | fcvtDL _ _ _ => exact shape_withRounding fun _ => shape_setD rfl rfl _ _
  | fcvtLuD _ _ _ => exact shape_withRounding fun _ => shape_setInt64 rfl rfl _ _
  | fcvtDLu _ _ _ => exact shape_withRounding fun _ => shape_setD rfl rfl _ _
  | fcvtSD _ _ _ => exact shape_withRounding fun _ => shape_setS rfl rfl _ _
  | fcvtDS _ _ _ => exact shape_withRounding fun _ => shape_setD rfl rfl _ _
  | fmvXD _ _ => exact shape_setX rfl rfl _ _
  | fmvDX _ _ => exact shape_setF rfl rfl _ _
  | cAddi4spn _ _ => exact shape_setX rfl rfl _ _
  | cFld _ _ _ => exact shape_loadF rfl rfl _ _ _
  | cLw _ _ _ => exact shape_load rfl rfl _ _ _
  | cFlw _ _ _ => exact shape_loadF rfl rfl _ _ _
  | cLd _ _ _ => exact shape_load rfl rfl _ _ _
  | cFsd _ _ _ => exact shape_storeF (by decide) rfl rfl _ _ _
  | cSw _ _ _ => exact shape_store (by decide) rfl rfl _ _ _
  | cFsw _ _ _ => exact shape_storeF (by decide) rfl rfl _ _ _
  | cSd _ _ _ => exact shape_store (by decide) rfl rfl _ _ _
  | cNop _ => exact shape_setX rfl rfl _ _
  | cAddi _ _ => exact shape_setX rfl rfl _ _
  | cJal _ => exact shape_link rfl rfl _ _ fun hpc => even_offset hpc _
  | cAddiw _ _ => exact shape_setX rfl rfl _ _
  | cLi _ _ => exact shape_setX rfl rfl _ _
  | cAddi16sp _ => exact shape_setX rfl rfl _ _
  | cLui _ _ => exact shape_setX rfl rfl _ _
  | cSrli _ _ => exact shape_setX rfl rfl _ _
  | cSrai _ _ => exact shape_setX rfl rfl _ _
  | cAndi _ _ => exact shape_setX rfl rfl _ _
  | cSub _ _ => exact shape_setX rfl rfl _ _
  | cXor _ _ => exact shape_setX rfl rfl _ _
  | cOr _ _ => exact shape_setX rfl rfl _ _
  | cAnd _ _ => exact shape_setX rfl rfl _ _
  | cSubw _ _ => exact shape_setX rfl rfl _ _
  | cAddw _ _ => exact shape_setX rfl rfl _ _
  | cJ _ => exact shape_link rfl rfl _ _ fun hpc => even_offset hpc _
  | cBeqz _ _ => exact shape_branch rfl rfl rfl _ _
  | cBnez _ _ => exact shape_branch rfl rfl rfl _ _
  | cSlli _ _ => exact shape_setX rfl rfl _ _
  | cFldsp _ _ => exact shape_loadF rfl rfl _ _ _
  | cLwsp _ _ => exact shape_load rfl rfl _ _ _
  | cFlwsp _ _ => exact shape_loadF rfl rfl _ _ _
  | cLdsp _ _ => exact shape_load rfl rfl _ _ _
  | cJr _ => exact shape_link rfl rfl _ _ fun _ => even_jalrTarget _ _
  | cMv _ _ => exact shape_setX rfl rfl _ _
  | cEbreak => exact shape_ebreak rfl rfl _
  | cJalr _ => exact shape_link rfl rfl _ _ fun _ => even_jalrTarget _ _
  | cAdd _ _ => exact shape_setX rfl rfl _ _
  | cFsdsp _ _ => exact shape_storeF (by decide) rfl rfl _ _ _
  | cSwsp _ _ => exact shape_store (by decide) rfl rfl _ _ _
  | cFswsp _ _ => exact shape_storeF (by decide) rfl rfl _ _ _
  | cSdsp _ _ => exact shape_store (by decide) rfl rfl _ _ _

end Sys2Proof.Machine
end

