-- ==== Sys2Proof/Tests/Slice0.lean ====
section
/-! SUPPORT. Tests. Expected results come from the spec: 95_test_vectors.md, the example words of 41 to 49, and the
match values and fields of opcode_table.json. The witnesses at the end meet the hypotheses of the statements. -/

namespace Sys2Proof.Tests

open Sys2Proof.Machine

/-! ### The reference state of 95_test_vectors.md -/

/-- The reference memory and default start state of 95_test_vectors.md section 1, inside a `simulate` with budget 1.
-/
def bench (xl : Xlen) (xs : List (Reg × Word)) : State :=
  let mem : Memory :=
    { cap := 0x100000
      unmapped := none
      checkFirst := true
      pages := [(1, { readable := true, writable := true, executable := true }),
        (2, { readable := true, writable := true, executable := false }),
        (3, { readable := true, writable := false, executable := false })]
      cells := [(0x2000, 0x80), (0x2001, 0xFF), (0x2002, 0x34), (0x2003, 0x12), (0x2004, 0x78), (0x2005, 0x56),
        (0x2006, 0x34), (0x2007, 0x82), (0x2FFE, 0xEF), (0x2FFF, 0xBE), (0x3000, 0xAD), (0x3001, 0xDE)] }
  xs.foldl (fun s p => s.writeX p.1 p.2)
    ({ State.reset with cfg := Config.gc xl 512, mem := mem, pc := 0x1000 }.simulate 1)

/-- Floating-point registers set. -/
def floats (s : State) (fs : List (FReg × BitVec 64)) : State := fs.foldl (fun s p => s.writeF p.1 p.2) s

/-- The values of the atomic vectors: 0x80000001 at 0x2000 and 0x8000000000000001 at 0x2008. -/
def atomics (s : State) : State :=
  { s with mem := s.mem.writeAll (storeCells s.cfg.xlen 0x2000 8 0x80000001#64 ++
      storeCells s.cfg.xlen 0x2008 8 0x8000000000000001#64) }

/-- EXT_C false. -/
def withoutC (s : State) : State := { s with cfg := { s.cfg with extC := false } }

/-- A reservation held. -/
def held (s : State) (a : Word) (sz : ResSize) : State := { s with reservation := some { addr := a, size := sz } }

/-- Code placed: the low `n` bytes of `w` at `a`. -/
def code (s : State) (a : Word) (n : Nat) (w : Nat) : State :=
  { s with mem := s.mem.writeAll (storeCells s.cfg.xlen a n (BitVec.ofNat 64 w)) }

/-- One step completes an instruction, and the state after meets `f`. -/
def runs (s : State) (f : State → Bool) : Bool :=
  match step s with
  | .next t => t.run == .running && t.instret == s.instret + 1 && f t
  | _ => false

/-- One step traps with this kind and value, with pc and instret as they were. -/
def traps (s : State) (kind : TrapKind) (v : Word) : Bool :=
  match step s with
  | .next t => t.run == .returned (.trap kind v) && t.pc == s.pc && t.instret == s.instret && t.x == s.x && t.f == s.f
  | _ => false

/-! ### Well-formedness: one ill-formed term for each check -/

/-- A shift amount of 32 or more is an instruction on RV64 only (30_encoding.md R275; 49_c.md R1045). -/
theorem test_illFormed_shamt :
    ([.slli 1#5 2#5 32#6, .srli 1#5 2#5 32#6, .srai 1#5 2#5 63#6, .cSrli 0#3 32#6, .cSrai 0#3 63#6, .cSlli 1#5 32#6]
      : List Instr).all (fun i => !i.wellFormed .rv32 && i.wellFormed .rv64) = true := by
  decide

/-- The RV64 rows of the base and of M. -/
theorem test_illFormed_rv64_integer :
    ([.addiw 1#5 2#5 3#12, .slliw 1#5 2#5 3#5, .srliw 1#5 2#5 3#5, .sraiw 1#5 2#5 3#5, .addw 1#5 2#5 3#5,
      .subw 1#5 2#5 3#5, .sllw 1#5 2#5 3#5, .srlw 1#5 2#5 3#5, .sraw 1#5 2#5 3#5, .ld 1#5 2#5 3#12, .lwu 1#5 2#5 3#12,
      .sd 1#5 2#5 3#12, .mulw 1#5 2#5 3#5, .divw 1#5 2#5 3#5, .divuw 1#5 2#5 3#5, .remw 1#5 2#5 3#5,
      .remuw 1#5 2#5 3#5] : List Instr).all (fun i => !i.wellFormed .rv32 && i.wellFormed .rv64) = true := by
  decide

/-- The RV64 rows of A. -/
theorem test_illFormed_rv64_atomic :
    ([.lrD 1#5 2#5 true false, .scD 1#5 2#5 3#5 false true, .amoswapD 1#5 2#5 3#5 true true,
      .amoaddD 1#5 2#5 3#5 false false, .amoxorD 1#5 2#5 3#5 false false, .amoandD 1#5 2#5 3#5 false false,
      .amoorD 1#5 2#5 3#5 false false, .amominD 1#5 2#5 3#5 false false, .amomaxD 1#5 2#5 3#5 false false,
      .amominuD 1#5 2#5 3#5 false false, .amomaxuD 1#5 2#5 3#5 false false] : List Instr).all
      (fun i => !i.wellFormed .rv32 && i.wellFormed .rv64) = true := by
  decide

/-- The RV64 rows of F and D (47_f.md R802). -/
theorem test_illFormed_rv64_float :
    ([.fcvtLS 1#5 2#5 0#3, .fcvtLuS 1#5 2#5 0#3, .fcvtSL 1#5 2#5 0#3, .fcvtSLu 1#5 2#5 0#3, .fcvtLD 1#5 2#5 0#3,
      .fcvtLuD 1#5 2#5 0#3, .fcvtDL 1#5 2#5 0#3, .fcvtDLu 1#5 2#5 0#3, .fmvXD 1#5 2#5, .fmvDX 1#5 2#5]
      : List Instr).all (fun i => !i.wellFormed .rv32 && i.wellFormed .rv64) = true := by
  decide

/-- The compressed rows of one register width. -/
theorem test_illFormed_width_compressed :
    ([.cFlw 0#3 1#3 2#5, .cFsw 0#3 1#3 2#5, .cFlwsp 1#5 2#6, .cFswsp 1#5 2#6, .cJal 4#11] : List Instr).all
      (fun i => i.wellFormed .rv32 && !i.wellFormed .rv64) = true ∧
    ([.cLd 0#3 1#3 2#5, .cSd 0#3 1#3 2#5, .cLdsp 1#5 2#6, .cSdsp 1#5 2#6, .cAddiw 1#5 2#6, .cSubw 0#3 1#3,
      .cAddw 0#3 1#3] : List Instr).all (fun i => !i.wellFormed .rv32 && i.wellFormed .rv64) = true := by
  decide

/-- The register and immediate conditions of the compressed rows (49_c.md R1045). -/
theorem test_illFormed_compressed :
    ([.cAddi4spn 0#3 0#8, .cAddi 0#5 1#6, .cAddiw 0#5 1#6, .cAddi16sp 0#6, .cLui 2#5 1#6, .cLui 1#5 0#6,
      .cLwsp 0#5 1#6, .cLdsp 0#5 1#6, .cJr 0#5, .cJalr 0#5, .cMv 1#5 0#5, .cAdd 1#5 0#5] : List Instr).all
      (fun i => !i.wellFormed .rv64) = true ∧
    ([.cAddi4spn 0#3 1#8, .cAddi 1#5 0#6, .cAddiw 1#5 0#6, .cAddi16sp 32#6, .cLui 1#5 1#6, .cLui 0#5 1#6,
      .cLwsp 1#5 0#6, .cLdsp 1#5 0#6, .cJr 1#5, .cJalr 1#5, .cMv 0#5 1#5, .cAdd 0#5 1#5] : List Instr).all
      (fun i => i.wellFormed .rv64) = true := by
  decide

/-- EXT_D needs EXT_F (00_scope.md R16). -/
theorem test_illFormed_config : { Config.gc .rv64 512 with extF := false }.wf = false ∧ (Config.gc .rv64 512).wf =
      true := by
  decide

/-! ### Decoding -/

/-- Words 30_encoding.md R310 and 49_c.md R1045 refuse. -/
theorem test_decode_refuses :
    ([(Xlen.rv64, 0x00000000#32), (.rv64, 0xFFFFFFFF#32), (.rv32, 0x02029313#32), (.rv32, 0x0012831B#32),
      (.rv64, 0x0202931B#32), (.rv64, 0x046283B3#32), (.rv64, 0x1012A3AF#32), (.rv32, 0x0062B3AF#32),
      (.rv64, 0x30200073#32), (.rv64, 0x10500073#32), (.rv64, 0x00029067#32)] : List (Xlen × BitVec 32)).all
      (fun e => (decodeRow e.1 (.word e.2)).isNone) = true ∧
    ([(Xlen.rv64, 0x0000#16), (.rv64, 0x8002#16), (.rv64, 0x6501#16), (.rv32, 0x1502#16), (.rv64, 0x4012#16),
      (.rv32, 0x9001#16)] : List (Xlen × BitVec 16)).all (fun e => (decodeRow e.1 (.half e.2)).isNone) = true := by
  decide

/-- LUI to OR: match value and fields of their rows of opcode_table.json. -/
theorem test_decode_base_1 :
    ([(Xlen.rv64, 0xDDA14937#32, (.lui 18#5 907796#20)),
      (Xlen.rv64, 0x8CAECC17#32, (.auipc 24#5 576236#20)),
      (Xlen.rv64, 0xF8C98213#32, (.addi 4#5 19#5 3980#12)),
      (Xlen.rv64, 0xD7C2A093#32, (.slti 1#5 5#5 3452#12)),
      (Xlen.rv64, 0x37643C93#32, (.sltiu 25#5 8#5 886#12)),
      (Xlen.rv64, 0x3E06CA93#32, (.xori 21#5 13#5 992#12)),
      (Xlen.rv64, 0x3C976893#32, (.ori 17#5 14#5 969#12)),
      (Xlen.rv64, 0x9566F293#32, (.andi 5#5 13#5 2390#12)),
      (Xlen.rv64, 0x00F69813#32, (.slli 16#5 13#5 15#6)),
      (Xlen.rv64, 0x014DD493#32, (.srli 9#5 27#5 20#6)),
      (Xlen.rv64, 0x42275593#32, (.srai 11#5 14#5 34#6)),
      (Xlen.rv64, 0x01FC0833#32, (.add 16#5 24#5 31#5)),
      (Xlen.rv64, 0x41A78433#32, (.sub 8#5 15#5 26#5)),
      (Xlen.rv64, 0x01169933#32, (.sll 18#5 13#5 17#5)),
      (Xlen.rv64, 0x014926B3#32, (.slt 13#5 18#5 20#5)),
      (Xlen.rv64, 0x010E3F33#32, (.sltu 30#5 28#5 16#5)),
      (Xlen.rv64, 0x0076C1B3#32, (.xor 3#5 13#5 7#5)),
      (Xlen.rv64, 0x00C7D0B3#32, (.srl 1#5 15#5 12#5)),
      (Xlen.rv64, 0x405ED0B3#32, (.sra 1#5 29#5 5#5)),
      (Xlen.rv64, 0x012CE4B3#32, (.or 9#5 25#5 18#5))]
      : List (Xlen × BitVec 32 × Instr)).all (fun e =>
      decodeRow e.1 (.word e.2.1) == some e.2.2) = true := by
  decide

/-- AND to LH: match value and fields of their rows of opcode_table.json. -/
theorem test_decode_base_2 :
    ([(Xlen.rv64, 0x00657D33#32, (.and 26#5 10#5 6#5)),
      (Xlen.rv64, 0xF424859B#32, (.addiw 11#5 9#5 3906#12)),
      (Xlen.rv64, 0x0127911B#32, (.slliw 2#5 15#5 18#5)),
      (Xlen.rv64, 0x00BD551B#32, (.srliw 10#5 26#5 11#5)),
      (Xlen.rv64, 0x4033D89B#32, (.sraiw 17#5 7#5 3#5)),
      (Xlen.rv64, 0x0167823B#32, (.addw 4#5 15#5 22#5)),
      (Xlen.rv64, 0x4057833B#32, (.subw 6#5 15#5 5#5)),
      (Xlen.rv64, 0x007A91BB#32, (.sllw 3#5 21#5 7#5)),
      (Xlen.rv64, 0x011D5A3B#32, (.srlw 20#5 26#5 17#5)),
      (Xlen.rv64, 0x4075563B#32, (.sraw 12#5 10#5 7#5)),
      (Xlen.rv64, 0x2BF818EF#32, (.jal 17#5 265567#20)),
      (Xlen.rv64, 0x3C720767#32, (.jalr 14#5 4#5 967#12)),
      (Xlen.rv64, 0xE3E401E3#32, (.beq 8#5 30#5 3857#12)),
      (Xlen.rv64, 0xB88596E3#32, (.bne 11#5 8#5 3526#12)),
      (Xlen.rv64, 0xBA49C963#32, (.blt 19#5 4#5 2521#12)),
      (Xlen.rv64, 0x46DE5C63#32, (.bge 28#5 13#5 572#12)),
      (Xlen.rv64, 0x8973E2E3#32, (.bltu 7#5 23#5 3138#12)),
      (Xlen.rv64, 0x987C7D63#32, (.bgeu 24#5 7#5 2253#12)),
      (Xlen.rv64, 0xB8CA0683#32, (.lb 13#5 20#5 2956#12)),
      (Xlen.rv64, 0x4B469C83#32, (.lh 25#5 13#5 1204#12))]
      : List (Xlen × BitVec 32 × Instr)).all (fun e =>
      decodeRow e.1 (.word e.2.1) == some e.2.2) = true := by
  decide

/-- LW to EBREAK: match value and fields of their rows of opcode_table.json. -/
theorem test_decode_base_3 :
    ([(Xlen.rv64, 0xF3242A83#32, (.lw 21#5 8#5 3890#12)),
      (Xlen.rv64, 0xAAC53D03#32, (.ld 26#5 10#5 2732#12)),
      (Xlen.rv64, 0x83374683#32, (.lbu 13#5 14#5 2099#12)),
      (Xlen.rv64, 0x61DAD283#32, (.lhu 5#5 21#5 1565#12)),
      (Xlen.rv64, 0xD58AE183#32, (.lwu 3#5 21#5 3416#12)),
      (Xlen.rv64, 0xEC2D8123#32, (.sb 27#5 2#5 3778#12)),
      (Xlen.rv64, 0x6DAA1A23#32, (.sh 20#5 26#5 1748#12)),
      (Xlen.rv64, 0x8B11ABA3#32, (.sw 3#5 17#5 2231#12)),
      (Xlen.rv64, 0x1E1AB3A3#32, (.sd 21#5 1#5 487#12)),
      (Xlen.rv64, 0x7DC9020F#32, (.fence 7#4 13#4 12#4 18#5 4#5)),
      (Xlen.rv64, 0x00000073#32, .ecall),
      (Xlen.rv64, 0x00100073#32, .ebreak)]
      : List (Xlen × BitVec 32 × Instr)).all (fun e =>
      decodeRow e.1 (.word e.2.1) == some e.2.2) = true := by
  decide

/-- FENCE.I. -/
theorem test_decode_zifencei :
    ([(Xlen.rv64, 0x2EF9110F#32, (.fenceI 751#12 18#5 2#5))]
      : List (Xlen × BitVec 32 × Instr)).all (fun e =>
      decodeRow e.1 (.word e.2.1) == some e.2.2) = true := by
  decide

/-- CSRRW to CSRRCI: match value and fields of their rows of opcode_table.json. -/
theorem test_decode_zicsr :
    ([(Xlen.rv64, 0xF0B51A73#32, (.csrrw 20#5 10#5 3851#12)),
      (Xlen.rv64, 0xA22EA5F3#32, (.csrrs 11#5 29#5 2594#12)),
      (Xlen.rv64, 0x54CBB973#32, (.csrrc 18#5 23#5 1356#12)),
      (Xlen.rv64, 0x2D6C53F3#32, (.csrrwi 7#5 24#5 726#12)),
      (Xlen.rv64, 0xBC43EA73#32, (.csrrsi 20#5 7#5 3012#12)),
      (Xlen.rv64, 0x7BCA70F3#32, (.csrrci 1#5 20#5 1980#12))]
      : List (Xlen × BitVec 32 × Instr)).all (fun e =>
      decodeRow e.1 (.word e.2.1) == some e.2.2) = true := by
  decide

/-- MUL to REMUW: match value and fields of their rows of opcode_table.json. -/
theorem test_decode_m :
    ([(Xlen.rv64, 0x02560B33#32, (.mul 22#5 12#5 5#5)),
      (Xlen.rv64, 0x036E14B3#32, (.mulh 9#5 28#5 22#5)),
      (Xlen.rv64, 0x0347A0B3#32, (.mulhsu 1#5 15#5 20#5)),
      (Xlen.rv64, 0x0351B933#32, (.mulhu 18#5 3#5 21#5)),
      (Xlen.rv64, 0x03E443B3#32, (.div 7#5 8#5 30#5)),
      (Xlen.rv64, 0x032DD2B3#32, (.divu 5#5 27#5 18#5)),
      (Xlen.rv64, 0x03D96433#32, (.rem 8#5 18#5 29#5)),
      (Xlen.rv64, 0x031AFC33#32, (.remu 24#5 21#5 17#5)),
      (Xlen.rv64, 0x02C685BB#32, (.mulw 11#5 13#5 12#5)),
      (Xlen.rv64, 0x039646BB#32, (.divw 13#5 12#5 25#5)),
      (Xlen.rv64, 0x039DD0BB#32, (.divuw 1#5 27#5 25#5)),
      (Xlen.rv64, 0x033BE83B#32, (.remw 16#5 23#5 19#5)),
      (Xlen.rv64, 0x0358F73B#32, (.remuw 14#5 17#5 21#5))]
      : List (Xlen × BitVec 32 × Instr)).all (fun e =>
      decodeRow e.1 (.word e.2.1) == some e.2.2) = true := by
  decide

/-- LR.W to AMOMAX.D: match value and fields of their rows of opcode_table.json. -/
theorem test_decode_a_1 :
    ([(Xlen.rv64, 0x1403A52F#32, (.lrW 10#5 7#5 true false)),
      (Xlen.rv64, 0x1ACA2DAF#32, (.scW 27#5 20#5 12#5 false true)),
      (Xlen.rv64, 0x12063E2F#32, (.lrD 28#5 12#5 false true)),
      (Xlen.rv64, 0x1B19B2AF#32, (.scD 5#5 19#5 17#5 false true)),
      (Xlen.rv64, 0x0C4627AF#32, (.amoswapW 15#5 12#5 4#5 true false)),
      (Xlen.rv64, 0x05CBA82F#32, (.amoaddW 16#5 23#5 28#5 true false)),
      (Xlen.rv64, 0x25D2A8AF#32, (.amoxorW 17#5 5#5 29#5 true false)),
      (Xlen.rv64, 0x63A225AF#32, (.amoandW 11#5 4#5 26#5 false true)),
      (Xlen.rv64, 0x432BA42F#32, (.amoorW 8#5 23#5 18#5 false true)),
      (Xlen.rv64, 0x8505ACAF#32, (.amominW 25#5 11#5 16#5 true false)),
      (Xlen.rv64, 0xA3C6A62F#32, (.amomaxW 12#5 13#5 28#5 false true)),
      (Xlen.rv64, 0xC344AE2F#32, (.amominuW 28#5 9#5 20#5 false true)),
      (Xlen.rv64, 0xE3352CAF#32, (.amomaxuW 25#5 10#5 19#5 false true)),
      (Xlen.rv64, 0x0B87B52F#32, (.amoswapD 10#5 15#5 24#5 false true)),
      (Xlen.rv64, 0x048B37AF#32, (.amoaddD 15#5 22#5 8#5 true false)),
      (Xlen.rv64, 0x2370B4AF#32, (.amoxorD 9#5 1#5 23#5 false true)),
      (Xlen.rv64, 0x63153AAF#32, (.amoandD 21#5 10#5 17#5 false true)),
      (Xlen.rv64, 0x444DB9AF#32, (.amoorD 19#5 27#5 4#5 true false)),
      (Xlen.rv64, 0x82563B2F#32, (.amominD 22#5 12#5 5#5 false true)),
      (Xlen.rv64, 0xA37831AF#32, (.amomaxD 3#5 16#5 23#5 false true))]
      : List (Xlen × BitVec 32 × Instr)).all (fun e =>
      decodeRow e.1 (.word e.2.1) == some e.2.2) = true := by
  decide

/-- AMOMINU.D to AMOMAXU.D: match value and fields of their rows of opcode_table.json. -/
theorem test_decode_a_2 :
    ([(Xlen.rv64, 0xC499B32F#32, (.amominuD 6#5 19#5 9#5 true false)),
      (Xlen.rv64, 0xE266B8AF#32, (.amomaxuD 17#5 13#5 6#5 false true))]
      : List (Xlen × BitVec 32 × Instr)).all (fun e =>
      decodeRow e.1 (.word e.2.1) == some e.2.2) = true := by
  decide

/-- FLW to FCLASS.S: match value and fields of their rows of opcode_table.json. -/
theorem test_decode_f_1 :
    ([(Xlen.rv64, 0xE650A687#32, (.flw 13#5 1#5 3685#12)),
      (Xlen.rv64, 0x2799A327#32, (.fsw 19#5 25#5 614#12)),
      (Xlen.rv64, 0xE088DEC3#32, (.fmaddS 29#5 17#5 8#5 28#5 5#3)),
      (Xlen.rv64, 0x695962C7#32, (.fmsubS 5#5 18#5 21#5 13#5 6#3)),
      (Xlen.rv64, 0xA1C0F54B#32, (.fnmsubS 10#5 1#5 28#5 20#5 7#3)),
      (Xlen.rv64, 0xC061D9CF#32, (.fnmaddS 19#5 3#5 6#5 24#5 5#3)),
      (Xlen.rv64, 0x001F6A53#32, (.faddS 20#5 30#5 1#5 6#3)),
      (Xlen.rv64, 0x08D19753#32, (.fsubS 14#5 3#5 13#5 1#3)),
      (Xlen.rv64, 0x102E69D3#32, (.fmulS 19#5 28#5 2#5 6#3)),
      (Xlen.rv64, 0x190ADE53#32, (.fdivS 28#5 21#5 16#5 5#3)),
      (Xlen.rv64, 0x580257D3#32, (.fsqrtS 15#5 4#5 5#3)),
      (Xlen.rv64, 0x20D18653#32, (.fsgnjS 12#5 3#5 13#5)),
      (Xlen.rv64, 0x21AE10D3#32, (.fsgnjnS 1#5 28#5 26#5)),
      (Xlen.rv64, 0x213AAC53#32, (.fsgnjxS 24#5 21#5 19#5)),
      (Xlen.rv64, 0x29930E53#32, (.fminS 28#5 6#5 25#5)),
      (Xlen.rv64, 0x29A219D3#32, (.fmaxS 19#5 4#5 26#5)),
      (Xlen.rv64, 0xA0A80ED3#32, (.fleS 29#5 16#5 10#5)),
      (Xlen.rv64, 0xA1CB11D3#32, (.fltS 3#5 22#5 28#5)),
      (Xlen.rv64, 0xA026A5D3#32, (.feqS 11#5 13#5 2#5)),
      (Xlen.rv64, 0xE0099653#32, (.fclassS 12#5 19#5))]
      : List (Xlen × BitVec 32 × Instr)).all (fun e =>
      decodeRow e.1 (.word e.2.1) == some e.2.2) = true := by
  decide

/-- FCVT.W.S to FMV.W.X: match value and fields of their rows of opcode_table.json. -/
theorem test_decode_f_2 :
    ([(Xlen.rv64, 0xC008EAD3#32, (.fcvtWS 21#5 17#5 6#3)),
      (Xlen.rv64, 0xD00B5C53#32, (.fcvtSW 24#5 22#5 5#3)),
      (Xlen.rv64, 0xC01493D3#32, (.fcvtWuS 7#5 9#5 1#3)),
      (Xlen.rv64, 0xD01E48D3#32, (.fcvtSWu 17#5 28#5 4#3)),
      (Xlen.rv64, 0xC029A4D3#32, (.fcvtLS 9#5 19#5 2#3)),
      (Xlen.rv64, 0xD02741D3#32, (.fcvtSL 3#5 14#5 4#3)),
      (Xlen.rv64, 0xC03A65D3#32, (.fcvtLuS 11#5 20#5 6#3)),
      (Xlen.rv64, 0xD03E19D3#32, (.fcvtSLu 19#5 28#5 1#3)),
      (Xlen.rv64, 0xE0048B53#32, (.fmvXW 22#5 9#5)),
      (Xlen.rv64, 0xF00D0C53#32, (.fmvWX 24#5 26#5))]
      : List (Xlen × BitVec 32 × Instr)).all (fun e =>
      decodeRow e.1 (.word e.2.1) == some e.2.2) = true := by
  decide

/-- FLD to FCLASS.D: match value and fields of their rows of opcode_table.json. -/
theorem test_decode_d_1 :
    ([(Xlen.rv64, 0x996CB287#32, (.fld 5#5 25#5 2454#12)),
      (Xlen.rv64, 0x3A673A27#32, (.fsd 14#5 6#5 948#12)),
      (Xlen.rv64, 0xD30FB0C3#32, (.fmaddD 1#5 31#5 16#5 26#5 3#3)),
      (Xlen.rv64, 0x8B5CD547#32, (.fmsubD 10#5 25#5 21#5 17#5 5#3)),
      (Xlen.rv64, 0xA2DA93CB#32, (.fnmsubD 7#5 21#5 13#5 20#5 1#3)),
      (Xlen.rv64, 0x13D2E9CF#32, (.fnmaddD 19#5 5#5 29#5 2#5 6#3)),
      (Xlen.rv64, 0x029E15D3#32, (.faddD 11#5 28#5 9#5 1#3)),
      (Xlen.rv64, 0x0B5C23D3#32, (.fsubD 7#5 24#5 21#5 2#3)),
      (Xlen.rv64, 0x134E1AD3#32, (.fmulD 21#5 28#5 20#5 1#3)),
      (Xlen.rv64, 0x1B6BA453#32, (.fdivD 8#5 23#5 22#5 2#3)),
      (Xlen.rv64, 0x5A03B153#32, (.fsqrtD 2#5 7#5 3#3)),
      (Xlen.rv64, 0x235C0353#32, (.fsgnjD 6#5 24#5 21#5)),
      (Xlen.rv64, 0x23B211D3#32, (.fsgnjnD 3#5 4#5 27#5)),
      (Xlen.rv64, 0x234626D3#32, (.fsgnjxD 13#5 12#5 20#5)),
      (Xlen.rv64, 0x2A7D0253#32, (.fminD 4#5 26#5 7#5)),
      (Xlen.rv64, 0x2BE11CD3#32, (.fmaxD 25#5 2#5 30#5)),
      (Xlen.rv64, 0xA37A0853#32, (.fleD 16#5 20#5 23#5)),
      (Xlen.rv64, 0xA2EB18D3#32, (.fltD 17#5 22#5 14#5)),
      (Xlen.rv64, 0xA38327D3#32, (.feqD 15#5 6#5 24#5)),
      (Xlen.rv64, 0xE2021ED3#32, (.fclassD 29#5 4#5))]
      : List (Xlen × BitVec 32 × Instr)).all (fun e =>
      decodeRow e.1 (.word e.2.1) == some e.2.2) = true := by
  decide

/-- FCVT.W.D to FMV.D.X: match value and fields of their rows of opcode_table.json. -/
theorem test_decode_d_2 :
    ([(Xlen.rv64, 0xC20965D3#32, (.fcvtWD 11#5 18#5 6#3)),
      (Xlen.rv64, 0xD20C4ED3#32, (.fcvtDW 29#5 24#5 4#3)),
      (Xlen.rv64, 0xC21F9853#32, (.fcvtWuD 16#5 31#5 1#3)),
      (Xlen.rv64, 0xD21B3853#32, (.fcvtDWu 16#5 22#5 3#3)),
      (Xlen.rv64, 0xC22570D3#32, (.fcvtLD 1#5 10#5 7#3)),
      (Xlen.rv64, 0xD224E653#32, (.fcvtDL 12#5 9#5 6#3)),
      (Xlen.rv64, 0xC2364B53#32, (.fcvtLuD 22#5 12#5 4#3)),
      (Xlen.rv64, 0xD236F453#32, (.fcvtDLu 8#5 13#5 7#3)),
      (Xlen.rv64, 0x40135A53#32, (.fcvtSD 20#5 6#5 5#3)),
      (Xlen.rv64, 0x420D32D3#32, (.fcvtDS 5#5 26#5 3#3)),
      (Xlen.rv64, 0xE20D80D3#32, (.fmvXD 1#5 27#5)),
      (Xlen.rv64, 0xF20988D3#32, (.fmvDX 17#5 19#5))]
      : List (Xlen × BitVec 32 × Instr)).all (fun e =>
      decodeRow e.1 (.word e.2.1) == some e.2.2) = true := by
  decide

/-- C.ADDI4SPN to C.SUBW: match value and fields of their rows of opcode_table.json. -/
theorem test_decode_c_1 :
    ([(Xlen.rv64, 0x0C70#16, (.cAddi4spn 4#3 135#8)),
      (Xlen.rv64, 0x49E8#16, (.cLw 2#3 3#3 21#5)),
      (Xlen.rv64, 0x6594#16, (.cLd 5#3 3#3 1#5)),
      (Xlen.rv64, 0xC6D8#16, (.cSw 5#3 6#3 3#5)),
      (Xlen.rv64, 0xED30#16, (.cSd 2#3 4#3 11#5)),
      (Xlen.rv64, 0x004D#16, (.cNop 19#6)),
      (Xlen.rv64, 0x0BC5#16, (.cAddi 23#5 17#6)),
      (Xlen.rv32, 0x3319#16, (.cJal 1667#11)),
      (Xlen.rv64, 0x346D#16, (.cAddiw 8#5 59#6)),
      (Xlen.rv64, 0x592D#16, (.cLi 18#5 43#6)),
      (Xlen.rv64, 0x7115#16, (.cAddi16sp 50#6)),
      (Xlen.rv64, 0x7939#16, (.cLui 18#5 46#6)),
      (Xlen.rv64, 0x81D9#16, (.cSrli 3#3 22#6)),
      (Xlen.rv64, 0x94CD#16, (.cSrai 1#3 51#6)),
      (Xlen.rv64, 0x88D5#16, (.cAndi 1#3 21#6)),
      (Xlen.rv64, 0x8E91#16, (.cSub 5#3 4#3)),
      (Xlen.rv64, 0x8DA9#16, (.cXor 3#3 2#3)),
      (Xlen.rv64, 0x8F49#16, (.cOr 6#3 2#3)),
      (Xlen.rv64, 0x8E6D#16, (.cAnd 4#3 3#3)),
      (Xlen.rv64, 0x9E89#16, (.cSubw 5#3 2#3))]
      : List (Xlen × BitVec 16 × Instr)).all (fun e =>
      decodeRow e.1 (.half e.2.1) == some e.2.2) = true := by
  decide

/-- C.ADDW to C.SDSP: match value and fields of their rows of opcode_table.json. -/
theorem test_decode_c_2 :
    ([(Xlen.rv64, 0x9F31#16, (.cAddw 6#3 4#3)),
      (Xlen.rv64, 0xB15D#16, (.cJ 1619#11)),
      (Xlen.rv64, 0xD2AD#16, (.cBeqz 5#3 177#8)),
      (Xlen.rv64, 0xE9B1#16, (.cBnez 3#3 42#8)),
      (Xlen.rv64, 0x03A6#16, (.cSlli 7#5 9#6)),
      (Xlen.rv64, 0x5F02#16, (.cLwsp 30#5 8#6)),
      (Xlen.rv64, 0x73C6#16, (.cLdsp 7#5 14#6)),
      (Xlen.rv64, 0x8C02#16, (.cJr 24#5)),
      (Xlen.rv64, 0x8A8E#16, (.cMv 21#5 3#5)),
      (Xlen.rv64, 0x9002#16, .cEbreak),
      (Xlen.rv64, 0x9D02#16, (.cJalr 26#5)),
      (Xlen.rv64, 0x9E2A#16, (.cAdd 28#5 10#5)),
      (Xlen.rv64, 0xC876#16, (.cSwsp 29#5 4#6)),
      (Xlen.rv64, 0xED32#16, (.cSdsp 12#5 19#6))]
      : List (Xlen × BitVec 16 × Instr)).all (fun e =>
      decodeRow e.1 (.half e.2.1) == some e.2.2) = true := by
  decide

/-- C.FLD to C.FSDSP: match value and fields of their rows of opcode_table.json. -/
theorem test_decode_cd :
    ([(Xlen.rv64, 0x28F4#16, (.cFld 5#3 1#3 26#5)),
      (Xlen.rv64, 0xBC88#16, (.cFsd 1#3 2#3 7#5)),
      (Xlen.rv64, 0x3962#16, (.cFldsp 18#5 7#6)),
      (Xlen.rv64, 0xB25E#16, (.cFsdsp 23#5 36#6))]
      : List (Xlen × BitVec 16 × Instr)).all (fun e =>
      decodeRow e.1 (.half e.2.1) == some e.2.2) = true := by
  decide

/-- C.FLW to C.FSWSP: match value and fields of their rows of opcode_table.json. -/
theorem test_decode_cf :
    ([(Xlen.rv32, 0x7628#16, (.cFlw 2#3 4#3 26#5)),
      (Xlen.rv32, 0xE9B8#16, (.cFsw 3#3 6#3 20#5)),
      (Xlen.rv32, 0x6F0A#16, (.cFlwsp 30#5 32#6)),
      (Xlen.rv32, 0xF9AA#16, (.cFswsp 10#5 60#6))]
      : List (Xlen × BitVec 16 × Instr)).all (fun e =>
      decodeRow e.1 (.half e.2.1) == some e.2.2) = true := by
  decide

/-- The example words 41_integer.md writes out (lui to srl). -/
theorem test_example_words_integer_1 :
    ([(Xlen.rv64, 0x123452B7#32, (.lui 5#5 74565#20)),
      (Xlen.rv64, 0x800002B7#32, (.lui 5#5 524288#20)),
      (Xlen.rv64, 0x00001297#32, (.auipc 5#5 1#20)),
      (Xlen.rv64, 0xFF628313#32, (.addi 6#5 5#5 4086#12)),
      (Xlen.rv64, 0xFFF2A313#32, (.slti 6#5 5#5 4095#12)),
      (Xlen.rv64, 0xFFF2B313#32, (.sltiu 6#5 5#5 4095#12)),
      (Xlen.rv64, 0xFFF2C313#32, (.xori 6#5 5#5 4095#12)),
      (Xlen.rv64, 0x0F02E313#32, (.ori 6#5 5#5 240#12)),
      (Xlen.rv64, 0x7FF2F313#32, (.andi 6#5 5#5 2047#12)),
      (Xlen.rv64, 0x00429313#32, (.slli 6#5 5#5 4#6)),
      (Xlen.rv64, 0x0042D313#32, (.srli 6#5 5#5 4#6)),
      (Xlen.rv64, 0x4042D313#32, (.srai 6#5 5#5 4#6)),
      (Xlen.rv64, 0x43F2D313#32, (.srai 6#5 5#5 63#6)),
      (Xlen.rv64, 0x006283B3#32, (.add 7#5 5#5 6#5)),
      (Xlen.rv64, 0x406283B3#32, (.sub 7#5 5#5 6#5)),
      (Xlen.rv64, 0x006293B3#32, (.sll 7#5 5#5 6#5)),
      (Xlen.rv64, 0x0062A3B3#32, (.slt 7#5 5#5 6#5)),
      (Xlen.rv64, 0x0062B3B3#32, (.sltu 7#5 5#5 6#5)),
      (Xlen.rv64, 0x0062C3B3#32, (.xor 7#5 5#5 6#5)),
      (Xlen.rv64, 0x0062D3B3#32, (.srl 7#5 5#5 6#5))]
      : List (Xlen × BitVec 32 × Instr)).all (fun e =>
      decodeRow e.1 (.word e.2.1) == some e.2.2) = true := by
  decide

/-- The example words 41_integer.md writes out (sra to sraw). -/
theorem test_example_words_integer_2 :
    ([(Xlen.rv64, 0x4062D3B3#32, (.sra 7#5 5#5 6#5)),
      (Xlen.rv64, 0x0062E3B3#32, (.or 7#5 5#5 6#5)),
      (Xlen.rv64, 0x0062F3B3#32, (.and 7#5 5#5 6#5)),
      (Xlen.rv64, 0x0012831B#32, (.addiw 6#5 5#5 1#12)),
      (Xlen.rv64, 0x01F2931B#32, (.slliw 6#5 5#5 31#5)),
      (Xlen.rv64, 0x0042D31B#32, (.srliw 6#5 5#5 4#5)),
      (Xlen.rv64, 0x4042D31B#32, (.sraiw 6#5 5#5 4#5)),
      (Xlen.rv64, 0x006283BB#32, (.addw 7#5 5#5 6#5)),
      (Xlen.rv64, 0x406283BB#32, (.subw 7#5 5#5 6#5)),
      (Xlen.rv64, 0x006293BB#32, (.sllw 7#5 5#5 6#5)),
      (Xlen.rv64, 0x0062D3BB#32, (.srlw 7#5 5#5 6#5)),
      (Xlen.rv64, 0x4062D3BB#32, (.sraw 7#5 5#5 6#5))]
      : List (Xlen × BitVec 32 × Instr)).all (fun e =>
      decodeRow e.1 (.word e.2.1) == some e.2.2) = true := by
  decide

/-- The example words 42_control.md writes out (jal to bgeu). -/
theorem test_example_words_control :
    ([(Xlen.rv64, 0x010000EF#32, (.jal 1#5 8#20)),
      (Xlen.rv64, 0xFF9FF06F#32, (.jal 0#5 1048572#20)),
      (Xlen.rv64, 0x006000EF#32, (.jal 1#5 3#20)),
      (Xlen.rv64, 0x004280E7#32, (.jalr 1#5 5#5 4#12)),
      (Xlen.rv64, 0x000282E7#32, (.jalr 5#5 5#5 0#12)),
      (Xlen.rv64, 0x000280E7#32, (.jalr 1#5 5#5 0#12)),
      (Xlen.rv64, 0x00628663#32, (.beq 5#5 6#5 6#12)),
      (Xlen.rv64, 0x00629663#32, (.bne 5#5 6#5 6#12)),
      (Xlen.rv64, 0xFE62CEE3#32, (.blt 5#5 6#5 4094#12)),
      (Xlen.rv64, 0x0062D463#32, (.bge 5#5 6#5 4#12)),
      (Xlen.rv64, 0x0062E463#32, (.bltu 5#5 6#5 4#12)),
      (Xlen.rv64, 0x0062F463#32, (.bgeu 5#5 6#5 4#12))]
      : List (Xlen × BitVec 32 × Instr)).all (fun e =>
      decodeRow e.1 (.word e.2.1) == some e.2.2) = true := by
  decide

/-- The example words 43_loadstore.md writes out (lb to lb). -/
theorem test_example_words_loadstore :
    ([(Xlen.rv64, 0x00028303#32, (.lb 6#5 5#5 0#12)),
      (Xlen.rv64, 0x00029303#32, (.lh 6#5 5#5 0#12)),
      (Xlen.rv64, 0x0002A303#32, (.lw 6#5 5#5 0#12)),
      (Xlen.rv64, 0x0012A303#32, (.lw 6#5 5#5 1#12)),
      (Xlen.rv64, 0xFFE2A303#32, (.lw 6#5 5#5 4094#12)),
      (Xlen.rv64, 0x0002B303#32, (.ld 6#5 5#5 0#12)),
      (Xlen.rv64, 0x0002C303#32, (.lbu 6#5 5#5 0#12)),
      (Xlen.rv64, 0x0002D303#32, (.lhu 6#5 5#5 0#12)),
      (Xlen.rv64, 0x0042E303#32, (.lwu 6#5 5#5 4#12)),
      (Xlen.rv64, 0x00628023#32, (.sb 5#5 6#5 0#12)),
      (Xlen.rv64, 0x00629023#32, (.sh 5#5 6#5 0#12)),
      (Xlen.rv64, 0x0062A023#32, (.sw 5#5 6#5 0#12)),
      (Xlen.rv64, 0xFE62AF23#32, (.sw 5#5 6#5 4094#12)),
      (Xlen.rv64, 0x0062B023#32, (.sd 5#5 6#5 0#12)),
      (Xlen.rv64, 0x00028003#32, (.lb 0#5 5#5 0#12))]
      : List (Xlen × BitVec 32 × Instr)).all (fun e =>
      decodeRow e.1 (.word e.2.1) == some e.2.2) = true := by
  decide

/-- The example words 44_system.md writes out (fence to csrrci). -/
theorem test_example_words_system :
    ([(Xlen.rv64, 0x0FF0000F#32, (.fence 0#4 15#4 15#4 0#5 0#5)),
      (Xlen.rv64, 0x300022F3#32, (.csrrs 5#5 0#5 768#12)),
      (Xlen.rv64, 0xC82022F3#32, (.csrrs 5#5 0#5 3202#12)),
      (Xlen.rv64, 0xC02322F3#32, (.csrrs 5#5 6#5 3074#12)),
      (Xlen.rv64, 0xC0029073#32, (.csrrw 0#5 5#5 3072#12)),
      (Xlen.rv64, 0x003312F3#32, (.csrrw 5#5 6#5 3#12)),
      (Xlen.rv64, 0x001022F3#32, (.csrrs 5#5 0#5 1#12)),
      (Xlen.rv64, 0xC02022F3#32, (.csrrs 5#5 0#5 3074#12)),
      (Xlen.rv64, 0x001332F3#32, (.csrrc 5#5 6#5 1#12)),
      (Xlen.rv64, 0x0020D073#32, (.csrrwi 0#5 1#5 2#12)),
      (Xlen.rv64, 0x0012E2F3#32, (.csrrsi 5#5 5#5 1#12)),
      (Xlen.rv64, 0x003FF2F3#32, (.csrrci 5#5 31#5 3#12))]
      : List (Xlen × BitVec 32 × Instr)).all (fun e =>
      decodeRow e.1 (.word e.2.1) == some e.2.2) = true := by
  decide

/-- The example words 45_m.md writes out (mul to remuw). -/
theorem test_example_words_m :
    ([(Xlen.rv64, 0x026283B3#32, (.mul 7#5 5#5 6#5)),
      (Xlen.rv64, 0x026293B3#32, (.mulh 7#5 5#5 6#5)),
      (Xlen.rv64, 0x0262A3B3#32, (.mulhsu 7#5 5#5 6#5)),
      (Xlen.rv64, 0x0262B3B3#32, (.mulhu 7#5 5#5 6#5)),
      (Xlen.rv64, 0x026283BB#32, (.mulw 7#5 5#5 6#5)),
      (Xlen.rv64, 0x0262C3BB#32, (.divw 7#5 5#5 6#5)),
      (Xlen.rv64, 0x0262D3BB#32, (.divuw 7#5 5#5 6#5)),
      (Xlen.rv64, 0x0262E3BB#32, (.remw 7#5 5#5 6#5)),
      (Xlen.rv64, 0x0262F3BB#32, (.remuw 7#5 5#5 6#5))]
      : List (Xlen × BitVec 32 × Instr)).all (fun e =>
      decodeRow e.1 (.word e.2.1) == some e.2.2) = true := by
  decide

/-- The example words 46_a.md writes out (lr.w to amomaxu.d). -/
theorem test_example_words_a :
    ([(Xlen.rv64, 0x1002A3AF#32, (.lrW 7#5 5#5 false false)),
      (Xlen.rv64, 0x1002B3AF#32, (.lrD 7#5 5#5 false false)),
      (Xlen.rv64, 0x0862A3AF#32, (.amoswapW 7#5 5#5 6#5 false false)),
      (Xlen.rv64, 0x0062A3AF#32, (.amoaddW 7#5 5#5 6#5 false false)),
      (Xlen.rv64, 0x2062A3AF#32, (.amoxorW 7#5 5#5 6#5 false false)),
      (Xlen.rv64, 0x6062A3AF#32, (.amoandW 7#5 5#5 6#5 false false)),
      (Xlen.rv64, 0x4062A3AF#32, (.amoorW 7#5 5#5 6#5 false false)),
      (Xlen.rv64, 0x8062A3AF#32, (.amominW 7#5 5#5 6#5 false false)),
      (Xlen.rv64, 0xA062A3AF#32, (.amomaxW 7#5 5#5 6#5 false false)),
      (Xlen.rv64, 0xC062A3AF#32, (.amominuW 7#5 5#5 6#5 false false)),
      (Xlen.rv64, 0xE062A3AF#32, (.amomaxuW 7#5 5#5 6#5 false false)),
      (Xlen.rv64, 0x0862B3AF#32, (.amoswapD 7#5 5#5 6#5 false false)),
      (Xlen.rv64, 0x0062B3AF#32, (.amoaddD 7#5 5#5 6#5 false false)),
      (Xlen.rv64, 0x2062B3AF#32, (.amoxorD 7#5 5#5 6#5 false false)),
      (Xlen.rv64, 0x6062B3AF#32, (.amoandD 7#5 5#5 6#5 false false)),
      (Xlen.rv64, 0x4062B3AF#32, (.amoorD 7#5 5#5 6#5 false false)),
      (Xlen.rv64, 0x8062B3AF#32, (.amominD 7#5 5#5 6#5 false false)),
      (Xlen.rv64, 0xA062B3AF#32, (.amomaxD 7#5 5#5 6#5 false false)),
      (Xlen.rv64, 0xC062B3AF#32, (.amominuD 7#5 5#5 6#5 false false)),
      (Xlen.rv64, 0xE062B3AF#32, (.amomaxuD 7#5 5#5 6#5 false false))]
      : List (Xlen × BitVec 32 × Instr)).all (fun e =>
      decodeRow e.1 (.word e.2.1) == some e.2.2) = true := by
  decide

/-- The example words 47_f.md writes out (flw to feq.s). -/
theorem test_example_words_f_1 :
    ([(Xlen.rv64, 0x0002A187#32, (.flw 3#5 5#5 0#12)),
      (Xlen.rv64, 0x0032A027#32, (.fsw 5#5 3#5 0#12)),
      (Xlen.rv64, 0x2020F1C7#32, (.fmsubS 3#5 1#5 2#5 4#5 7#3)),
      (Xlen.rv64, 0x2020F1CB#32, (.fnmsubS 3#5 1#5 2#5 4#5 7#3)),
      (Xlen.rv64, 0x2020F1CF#32, (.fnmaddS 3#5 1#5 2#5 4#5 7#3)),
      (Xlen.rv64, 0x0020F1D3#32, (.faddS 3#5 1#5 2#5 7#3)),
      (Xlen.rv64, 0x0820F1D3#32, (.fsubS 3#5 1#5 2#5 7#3)),
      (Xlen.rv64, 0x1020F1D3#32, (.fmulS 3#5 1#5 2#5 7#3)),
      (Xlen.rv64, 0x1820F1D3#32, (.fdivS 3#5 1#5 2#5 7#3)),
      (Xlen.rv64, 0x5800F1D3#32, (.fsqrtS 3#5 1#5 7#3)),
      (Xlen.rv64, 0x202081D3#32, (.fsgnjS 3#5 1#5 2#5)),
      (Xlen.rv64, 0x202091D3#32, (.fsgnjnS 3#5 1#5 2#5)),
      (Xlen.rv64, 0x201091D3#32, (.fsgnjnS 3#5 1#5 1#5)),
      (Xlen.rv64, 0x2020A1D3#32, (.fsgnjxS 3#5 1#5 2#5)),
      (Xlen.rv64, 0x2010A1D3#32, (.fsgnjxS 3#5 1#5 1#5)),
      (Xlen.rv64, 0x282081D3#32, (.fminS 3#5 1#5 2#5)),
      (Xlen.rv64, 0x282091D3#32, (.fmaxS 3#5 1#5 2#5)),
      (Xlen.rv64, 0xC01092D3#32, (.fcvtWuS 5#5 1#5 1#3)),
      (Xlen.rv64, 0xE00082D3#32, (.fmvXW 5#5 1#5)),
      (Xlen.rv64, 0xA020A2D3#32, (.feqS 5#5 1#5 2#5))]
      : List (Xlen × BitVec 32 × Instr)).all (fun e =>
      decodeRow e.1 (.word e.2.1) == some e.2.2) = true := by
  decide

/-- The example words 47_f.md writes out (flt.s to fcvt.s.lu). -/
theorem test_example_words_f_2 :
    ([(Xlen.rv64, 0xA02092D3#32, (.fltS 5#5 1#5 2#5)),
      (Xlen.rv64, 0xA02082D3#32, (.fleS 5#5 1#5 2#5)),
      (Xlen.rv64, 0xE00092D3#32, (.fclassS 5#5 1#5)),
      (Xlen.rv64, 0xD012F1D3#32, (.fcvtSWu 3#5 5#5 7#3)),
      (Xlen.rv64, 0xF00281D3#32, (.fmvWX 3#5 5#5)),
      (Xlen.rv64, 0xC02092D3#32, (.fcvtLS 5#5 1#5 1#3)),
      (Xlen.rv64, 0xD022F1D3#32, (.fcvtSL 3#5 5#5 7#3)),
      (Xlen.rv64, 0xD032F1D3#32, (.fcvtSLu 3#5 5#5 7#3))]
      : List (Xlen × BitVec 32 × Instr)).all (fun e =>
      decodeRow e.1 (.word e.2.1) == some e.2.2) = true := by
  decide

/-- The example words 48_d.md writes out (fld to flt.d). -/
theorem test_example_words_d_1 :
    ([(Xlen.rv64, 0x0002B187#32, (.fld 3#5 5#5 0#12)),
      (Xlen.rv64, 0x0032B027#32, (.fsd 5#5 3#5 0#12)),
      (Xlen.rv64, 0x2220F1C3#32, (.fmaddD 3#5 1#5 2#5 4#5 7#3)),
      (Xlen.rv64, 0x2220F1C7#32, (.fmsubD 3#5 1#5 2#5 4#5 7#3)),
      (Xlen.rv64, 0x2220F1CB#32, (.fnmsubD 3#5 1#5 2#5 4#5 7#3)),
      (Xlen.rv64, 0x2220F1CF#32, (.fnmaddD 3#5 1#5 2#5 4#5 7#3)),
      (Xlen.rv64, 0x0220F1D3#32, (.faddD 3#5 1#5 2#5 7#3)),
      (Xlen.rv64, 0x0A20F1D3#32, (.fsubD 3#5 1#5 2#5 7#3)),
      (Xlen.rv64, 0x1220F1D3#32, (.fmulD 3#5 1#5 2#5 7#3)),
      (Xlen.rv64, 0x1A20F1D3#32, (.fdivD 3#5 1#5 2#5 7#3)),
      (Xlen.rv64, 0x5A00F1D3#32, (.fsqrtD 3#5 1#5 7#3)),
      (Xlen.rv64, 0x222081D3#32, (.fsgnjD 3#5 1#5 2#5)),
      (Xlen.rv64, 0x222091D3#32, (.fsgnjnD 3#5 1#5 2#5)),
      (Xlen.rv64, 0x2220A1D3#32, (.fsgnjxD 3#5 1#5 2#5)),
      (Xlen.rv64, 0x2A2081D3#32, (.fminD 3#5 1#5 2#5)),
      (Xlen.rv64, 0x2A2091D3#32, (.fmaxD 3#5 1#5 2#5)),
      (Xlen.rv64, 0x4010F1D3#32, (.fcvtSD 3#5 1#5 7#3)),
      (Xlen.rv64, 0x4200F1D3#32, (.fcvtDS 3#5 1#5 7#3)),
      (Xlen.rv64, 0xA220A2D3#32, (.feqD 5#5 1#5 2#5)),
      (Xlen.rv64, 0xA22092D3#32, (.fltD 5#5 1#5 2#5))]
      : List (Xlen × BitVec 32 × Instr)).all (fun e =>
      decodeRow e.1 (.word e.2.1) == some e.2.2) = true := by
  decide

/-- The example words 48_d.md writes out (fle.d to fmv.d.x). -/
theorem test_example_words_d_2 :
    ([(Xlen.rv64, 0xA22082D3#32, (.fleD 5#5 1#5 2#5)),
      (Xlen.rv64, 0xE20092D3#32, (.fclassD 5#5 1#5)),
      (Xlen.rv64, 0xD202F1D3#32, (.fcvtDW 3#5 5#5 7#3)),
      (Xlen.rv64, 0xD212F1D3#32, (.fcvtDWu 3#5 5#5 7#3)),
      (Xlen.rv64, 0xE20082D3#32, (.fmvXD 5#5 1#5)),
      (Xlen.rv64, 0xD222F1D3#32, (.fcvtDL 3#5 5#5 7#3)),
      (Xlen.rv64, 0xD232F1D3#32, (.fcvtDLu 3#5 5#5 7#3)),
      (Xlen.rv64, 0xF20281D3#32, (.fmvDX 3#5 5#5))]
      : List (Xlen × BitVec 32 × Instr)).all (fun e =>
      decodeRow e.1 (.word e.2.1) == some e.2.2) = true := by
  decide

/-- The halfwords 49_c.md writes out (c.addi4spn to c.addi16sp) expand to the words it gives. -/
theorem test_expansions_1 :
    ([(Xlen.rv64, 0x0800#16, 0x01010413#32), (Xlen.rv64, 0x1FFC#16, 0x3FC10793#32), (Xlen.rv64, 0x2480#16,
      0x0084B407#32),
      (Xlen.rv64, 0x40C0#16, 0x0044A403#32), (Xlen.rv64, 0x5CE0#16, 0x07C4A403#32), (Xlen.rv32, 0x60C0#16,
      0x0044A407#32),
      (Xlen.rv64, 0x6080#16, 0x0004B403#32), (Xlen.rv64, 0x7CE0#16, 0x0F84B403#32), (Xlen.rv64, 0xA480#16,
      0x0084B427#32),
      (Xlen.rv64, 0xC0C0#16, 0x0084A223#32), (Xlen.rv32, 0xE0C0#16, 0x0084A227#32), (Xlen.rv64, 0xE480#16,
      0x0084B423#32),
      (Xlen.rv64, 0x157D#16, 0xFFF50513#32), (Xlen.rv64, 0x057D#16, 0x01F50513#32), (Xlen.rv32, 0x2801#16,
      0x010000EF#32),
      (Xlen.rv32, 0x3001#16, 0x801FF0EF#32), (Xlen.rv64, 0x2505#16, 0x0015051B#32), (Xlen.rv64, 0x5501#16,
      0xFE000513#32),
      (Xlen.rv64, 0x457D#16, 0x01F00513#32), (Xlen.rv64, 0x7139#16, 0xFC010113#32)]
      : List (Xlen × BitVec 16 × BitVec 32)).all (fun e =>
      (decodeRow e.1 (.half e.2.1)).map (fun i => encode i.expand) == some (.word e.2.2)) = true := by
  decide

/-- The halfwords 49_c.md writes out (c.addi16sp to c.bnez) expand to the words it gives. -/
theorem test_expansions_2 :
    ([(Xlen.rv64, 0x617D#16, 0x1F010113#32), (Xlen.rv64, 0x6505#16, 0x00001537#32), (Xlen.rv64, 0x7501#16,
      0xFFFE0537#32),
      (Xlen.rv64, 0x757D#16, 0xFFFFF537#32), (Xlen.rv64, 0x8011#16, 0x00445413#32), (Xlen.rv64, 0x9001#16,
      0x02045413#32),
      (Xlen.rv64, 0x8411#16, 0x40445413#32), (Xlen.rv64, 0x947D#16, 0x43F45413#32), (Xlen.rv64, 0x9941#16,
      0xFF057513#32),
      (Xlen.rv64, 0x8915#16, 0x00557513#32), (Xlen.rv64, 0x8C05#16, 0x40940433#32), (Xlen.rv64, 0x8C25#16,
      0x00944433#32),
      (Xlen.rv64, 0x8C45#16, 0x00946433#32), (Xlen.rv64, 0x8C65#16, 0x00947433#32), (Xlen.rv64, 0x9C05#16,
      0x4094043B#32),
      (Xlen.rv64, 0x9C25#16, 0x0094043B#32), (Xlen.rv64, 0xBFF5#16, 0xFFDFF06F#32), (Xlen.rv64, 0xAFFD#16,
      0x7FE0006F#32),
      (Xlen.rv64, 0xC401#16, 0x00040463#32), (Xlen.rv64, 0xF001#16, 0xF00410E3#32)]
      : List (Xlen × BitVec 16 × BitVec 32)).all (fun e =>
      (decodeRow e.1 (.half e.2.1)).map (fun i => encode i.expand) == some (.word e.2.2)) = true := by
  decide

/-- The halfwords 49_c.md writes out (c.slli to c.sdsp) expand to the words it gives. -/
theorem test_expansions_3 :
    ([(Xlen.rv64, 0x050E#16, 0x00351513#32), (Xlen.rv64, 0x1502#16, 0x02051513#32), (Xlen.rv64, 0x20A2#16,
      0x00813087#32),
      (Xlen.rv64, 0x4512#16, 0x00412503#32), (Xlen.rv64, 0x557E#16, 0x0FC12503#32), (Xlen.rv32, 0x6092#16,
      0x00412087#32),
      (Xlen.rv64, 0x6502#16, 0x00013503#32), (Xlen.rv64, 0x757E#16, 0x1F813503#32), (Xlen.rv64, 0x8082#16,
      0x00008067#32),
      (Xlen.rv64, 0x852E#16, 0x00B00533#32), (Xlen.rv64, 0x9282#16, 0x000280E7#32), (Xlen.rv64, 0x952E#16,
      0x00B50533#32),
      (Xlen.rv64, 0xA422#16, 0x00813427#32), (Xlen.rv64, 0xC22A#16, 0x00A12223#32), (Xlen.rv32, 0xE222#16,
      0x00812227#32),
      (Xlen.rv64, 0xE42A#16, 0x00A13423#32)]
      : List (Xlen × BitVec 16 × BitVec 32)).all (fun e =>
      (decodeRow e.1 (.half e.2.1)).map (fun i => encode i.expand) == some (.word e.2.2)) = true := by
  decide

/-! ### One step: vectors of 95_test_vectors.md -/

/-- 95_test_vectors.md 5.1: addi x6, x5, 1 (wrap) RV32. -/
theorem test_addi_wraps :
    runs (code (bench .rv32 [(5#5, 0x7FFFFFFF#64)]) 0x1000#64 4 0x00128313) (fun t =>
      t.readX 6#5 == 0x80000000#64 && t.pc == 0x1004#64) = true := by
  decide

/-- 95_test_vectors.md 5.1: addi x0, x5, 1 (x0 stays zero; a HINT) RV32. -/
theorem test_addi_to_x0 :
    runs (code (bench .rv32 [(5#5, 0x7#64)]) 0x1000#64 4 0x00128013) (fun t =>
      t.readX 0#5 == 0x00000000#64 && t.pc == 0x1004#64) = true := by
  decide

/-- 95_test_vectors.md 5.1: slti x6, x5, -1 RV32. -/
theorem test_slti_signed :
    runs (code (bench .rv32 [(5#5, 0xFFFFFFFE#64)]) 0x1000#64 4 0xFFF2A313) (fun t =>
      t.readX 6#5 == 0x00000001#64 && t.pc == 0x1004#64) = true := by
  decide

/-- 95_test_vectors.md 5.1: sltiu x6, x5, -1 (x5 all ones) RV32. -/
theorem test_sltiu_equal :
    runs (code (bench .rv32 [(5#5, 0xFFFFFFFF#64)]) 0x1000#64 4 0xFFF2B313) (fun t =>
      t.readX 6#5 == 0x00000000#64 && t.pc == 0x1004#64) = true := by
  decide

/-- 95_test_vectors.md 5.1: xori x6, x5, -1 (not) RV32. -/
theorem test_xori_extends :
    runs (code (bench .rv32 [(5#5, 0xF0F0F0F#64)]) 0x1000#64 4 0xFFF2C313) (fun t =>
      t.readX 6#5 == 0xF0F0F0F0#64 && t.pc == 0x1004#64) = true := by
  decide

/-- 95_test_vectors.md 5.1: ori x6, x5, 0x7FF RV64. -/
theorem test_ori :
    runs (code (bench .rv64 [(5#5, 0x8000000000000000#64)]) 0x1000#64 4 0x7FF2E313) (fun t =>
      t.readX 6#5 == 0x80000000000007FF#64 && t.pc == 0x1004#64) = true := by
  decide

/-- 95_test_vectors.md 5.1: andi x6, x5, -256 RV64. -/
theorem test_andi :
    runs (code (bench .rv64 [(5#5, 0x123456789ABCDEF0#64)]) 0x1000#64 4 0xF002F313) (fun t =>
      t.readX 6#5 == 0x123456789ABCDE00#64 && t.pc == 0x1004#64) = true := by
  decide

/-- 95_test_vectors.md 5.1: slli x6, x5, 32 RV64. -/
theorem test_slli_rv64 :
    runs (code (bench .rv64 [(5#5, 0x3#64)]) 0x1000#64 4 0x02029313) (fun t =>
      t.readX 6#5 == 0x0000000300000000#64 && t.pc == 0x1004#64) = true := by
  decide

/-- 95_test_vectors.md 5.1: srli x6, x5, 63 RV64. -/
theorem test_srli :
    runs (code (bench .rv64 [(5#5, 0x8000000000000000#64)]) 0x1000#64 4 0x03F2D313) (fun t =>
      t.readX 6#5 == 0x0000000000000001#64 && t.pc == 0x1004#64) = true := by
  decide

/-- 95_test_vectors.md 5.1: srai x6, x5, 4 RV32. -/
theorem test_srai :
    runs (code (bench .rv32 [(5#5, 0x80000010#64)]) 0x1000#64 4 0x4042D313) (fun t =>
      t.readX 6#5 == 0xF8000001#64 && t.pc == 0x1004#64) = true := by
  decide

/-- 95_test_vectors.md 5.1: lui x5, 0x80000 (sign-extended) RV64. -/
theorem test_lui_extends :
    runs (code (bench .rv64 []) 0x1000#64 4 0x800002B7) (fun t =>
      t.readX 5#5 == 0xFFFFFFFF80000000#64 && t.pc == 0x1004#64) = true := by
  decide

/-- 95_test_vectors.md 5.1: auipc x5, 0xFFFFF RV32. -/
theorem test_auipc_wraps :
    runs (code (bench .rv32 []) 0x1000#64 4 0xFFFFF297) (fun t =>
      t.readX 5#5 == 0x00000000#64 && t.pc == 0x1004#64) = true := by
  decide

/-- 95_test_vectors.md 5.1: add x7, x5, x6 (wrap) RV64. -/
theorem test_add_wraps :
    runs (code (bench .rv64 [(5#5, 0xFFFFFFFFFFFFFFFF#64), (6#5, 0x2#64)]) 0x1000#64 4 0x006283B3) (fun t =>
      t.readX 7#5 == 0x0000000000000001#64 && t.pc == 0x1004#64) = true := by
  decide

/-- 95_test_vectors.md 5.1: sub x7, x5, x6 RV32. -/
theorem test_sub_wraps :
    runs (code (bench .rv32 [(5#5, 0x0#64), (6#5, 0x1#64)]) 0x1000#64 4 0x406283B3) (fun t =>
      t.readX 7#5 == 0xFFFFFFFF#64 && t.pc == 0x1004#64) = true := by
  decide

/-- 95_test_vectors.md 5.1: sll x7, x5, x6 (x6 = 33 masks to 1) RV32. -/
theorem test_sll_masks_amount :
    runs (code (bench .rv32 [(5#5, 0x1#64), (6#5, 0x21#64)]) 0x1000#64 4 0x006293B3) (fun t =>
      t.readX 7#5 == 0x00000002#64 && t.pc == 0x1004#64) = true := by
  decide

/-- 95_test_vectors.md 5.1: slt x7, x5, x6 RV32. -/
theorem test_slt :
    runs (code (bench .rv32 [(5#5, 0xFFFFFFFF#64), (6#5, 0x1#64)]) 0x1000#64 4 0x0062A3B3) (fun t =>
      t.readX 7#5 == 0x00000001#64 && t.pc == 0x1004#64) = true := by
  decide

/-- 95_test_vectors.md 5.1: sltu x7, x5, x6 RV32. -/
theorem test_sltu :
    runs (code (bench .rv32 [(5#5, 0xFFFFFFFF#64), (6#5, 0x1#64)]) 0x1000#64 4 0x0062B3B3) (fun t =>
      t.readX 7#5 == 0x00000000#64 && t.pc == 0x1004#64) = true := by
  decide

/-- 95_test_vectors.md 5.1: xor x7, x5, x5 RV32. -/
theorem test_xor :
    runs (code (bench .rv32 [(5#5, 0x1234#64)]) 0x1000#64 4 0x0052C3B3) (fun t =>
      t.readX 7#5 == 0x00000000#64 && t.pc == 0x1004#64) = true := by
  decide

/-- 95_test_vectors.md 5.1: srl x7, x5, x6 RV32. -/
theorem test_srl :
    runs (code (bench .rv32 [(5#5, 0x80000000#64), (6#5, 0x1F#64)]) 0x1000#64 4 0x0062D3B3) (fun t =>
      t.readX 7#5 == 0x00000001#64 && t.pc == 0x1004#64) = true := by
  decide

/-- 95_test_vectors.md 5.1: sra x7, x5, x6 (x6 = 0xFF masks to 31) RV32. -/
theorem test_sra_masks_amount :
    runs (code (bench .rv32 [(5#5, 0x80000000#64), (6#5, 0xFF#64)]) 0x1000#64 4 0x4062D3B3) (fun t =>
      t.readX 7#5 == 0xFFFFFFFF#64 && t.pc == 0x1004#64) = true := by
  decide

/-- 95_test_vectors.md 5.1: or x7, x5, x6 RV32. -/
theorem test_or :
    runs (code (bench .rv32 [(5#5, 0xF0#64), (6#5, 0xF#64)]) 0x1000#64 4 0x0062E3B3) (fun t =>
      t.readX 7#5 == 0x000000FF#64 && t.pc == 0x1004#64) = true := by
  decide

/-- 95_test_vectors.md 5.1: and x7, x5, x6 RV32. -/
theorem test_and :
    runs (code (bench .rv32 [(5#5, 0xF0#64), (6#5, 0x3C#64)]) 0x1000#64 4 0x0062F3B3) (fun t =>
      t.readX 7#5 == 0x00000030#64 && t.pc == 0x1004#64) = true := by
  decide

/-- 95_test_vectors.md 5.1: addiw x6, x5, 1 (wrap at 32 bits) RV64. -/
theorem test_addiw :
    runs (code (bench .rv64 [(5#5, 0x7FFFFFFF#64)]) 0x1000#64 4 0x0012831B) (fun t =>
      t.readX 6#5 == 0xFFFFFFFF80000000#64 && t.pc == 0x1004#64) = true := by
  decide

/-- 95_test_vectors.md 5.1: slliw x6, x5, 31 RV64. -/
theorem test_slliw :
    runs (code (bench .rv64 [(5#5, 0x1#64)]) 0x1000#64 4 0x01F2931B) (fun t =>
      t.readX 6#5 == 0xFFFFFFFF80000000#64 && t.pc == 0x1004#64) = true := by
  decide

/-- 95_test_vectors.md 5.1: srliw x6, x5, 4 RV64. -/
theorem test_srliw :
    runs (code (bench .rv64 [(5#5, 0xFFFFFFFF80000000#64)]) 0x1000#64 4 0x0042D31B) (fun t =>
      t.readX 6#5 == 0x0000000008000000#64 && t.pc == 0x1004#64) = true := by
  decide

/-- 95_test_vectors.md 5.1: sraiw x6, x5, 4 RV64. -/
theorem test_sraiw :
    runs (code (bench .rv64 [(5#5, 0x80000000#64)]) 0x1000#64 4 0x4042D31B) (fun t =>
      t.readX 6#5 == 0xFFFFFFFFF8000000#64 && t.pc == 0x1004#64) = true := by
  decide

/-- 95_test_vectors.md 5.1: addw x7, x5, x6 RV64. -/
theorem test_addw :
    runs (code (bench .rv64 [(5#5, 0x7FFFFFFF#64), (6#5, 0x1#64)]) 0x1000#64 4 0x006283BB) (fun t =>
      t.readX 7#5 == 0xFFFFFFFF80000000#64 && t.pc == 0x1004#64) = true := by
  decide

/-- 95_test_vectors.md 5.1: subw x7, x5, x6 RV64. -/
theorem test_subw :
    runs (code (bench .rv64 [(5#5, 0x0#64), (6#5, 0x1#64)]) 0x1000#64 4 0x406283BB) (fun t =>
      t.readX 7#5 == 0xFFFFFFFFFFFFFFFF#64 && t.pc == 0x1004#64) = true := by
  decide

/-- 95_test_vectors.md 5.1: sllw x7, x5, x6 (x6 = 33 masks to 1) RV64. -/
theorem test_sllw :
    runs (code (bench .rv64 [(5#5, 0x40000000#64), (6#5, 0x21#64)]) 0x1000#64 4 0x006293BB) (fun t =>
      t.readX 7#5 == 0xFFFFFFFF80000000#64 && t.pc == 0x1004#64) = true := by
  decide

/-- 95_test_vectors.md 5.1: srlw x7, x5, x6 RV64. -/
theorem test_srlw :
    runs (code (bench .rv64 [(5#5, 0xFFFFFFFF80000000#64), (6#5, 0x1F#64)]) 0x1000#64 4 0x0062D3BB) (fun t =>
      t.readX 7#5 == 0x0000000000000001#64 && t.pc == 0x1004#64) = true := by
  decide

/-- 95_test_vectors.md 5.1: sraw x7, x5, x6 RV64. -/
theorem test_sraw :
    runs (code (bench .rv64 [(5#5, 0x80000000#64), (6#5, 0x1F#64)]) 0x1000#64 4 0x4062D3BB) (fun t =>
      t.readX 7#5 == 0xFFFFFFFFFFFFFFFF#64 && t.pc == 0x1004#64) = true := by
  decide

/-- 95_test_vectors.md 5.2: jal x1, 8 RV32. -/
theorem test_jal_links :
    runs (code (bench .rv32 []) 0x1000#64 4 0x008000EF) (fun t =>
      t.readX 1#5 == 0x00001004#64 && t.pc == 0x1008#64) = true := by
  decide

/-- 95_test_vectors.md 5.2: jal x1, 2 (EXT_C false) RV32. -/
theorem test_jal_misaligned :
    traps (code (withoutC (bench .rv32 [])) 0x1000#64 4 0x002000EF) .misalignedFault 0x1002#64 = true := by
  decide

/-- 95_test_vectors.md 5.2: jalr x1, 3(x5) (bit 0 cleared) RV32. -/
theorem test_jalr_clears_bit0 :
    runs (code (bench .rv32 [(5#5, 0x2000#64)]) 0x1000#64 4 0x003280E7) (fun t =>
      t.readX 1#5 == 0x00001004#64 && t.pc == 0x2002#64) = true := by
  decide

/-- 95_test_vectors.md 5.2: jalr x5, 0(x5) (rd = rs1) RV32. -/
theorem test_jalr_same_register :
    runs (code (bench .rv32 [(5#5, 0x2000#64)]) 0x1000#64 4 0x000282E7) (fun t =>
      t.readX 5#5 == 0x00001004#64 && t.pc == 0x2000#64) = true := by
  decide

/-- 95_test_vectors.md 5.2: jalr x1, 2(x5) (EXT_C false) RV32. -/
theorem test_jalr_misaligned :
    traps (code (withoutC (bench .rv32 [(5#5, 0x2000#64)])) 0x1000#64 4 0x002280E7) .misalignedFault 0x2002#64 = true
      := by
  decide

/-- 95_test_vectors.md 5.2: beq x5, x6, 16 (taken) RV32. -/
theorem test_beq_taken :
    runs (code (bench .rv32 [(5#5, 0x3#64), (6#5, 0x3#64)]) 0x1000#64 4 0x00628863) (fun t =>
      t.pc == 0x1010#64) = true := by
  decide

/-- 95_test_vectors.md 5.2: beq x0, x0, 6 (EXT_C false, taken, misaligned) RV32. -/
theorem test_beq_misaligned :
    traps (code (withoutC (bench .rv32 [])) 0x1000#64 4 0x00000363) .misalignedFault 0x1006#64 = true := by
  decide

/-- 95_test_vectors.md 5.2: bne x5, x6, -16 RV32. -/
theorem test_bne_backward :
    runs (code (bench .rv32 [(5#5, 0x3#64), (6#5, 0x4#64)]) 0x1000#64 4 0xFE6298E3) (fun t =>
      t.pc == 0xFF0#64) = true := by
  decide

/-- 95_test_vectors.md 5.2: bne x0, x0, 6 (EXT_C false, not taken) RV32. -/
theorem test_bne_not_taken :
    runs (code (withoutC (bench .rv32 [])) 0x1000#64 4 0x00001363) (fun t =>
      t.pc == 0x1004#64) = true := by
  decide

/-- 95_test_vectors.md 5.2: blt x5, x6, 8 (-1 < 1) RV32. -/
theorem test_blt :
    runs (code (bench .rv32 [(5#5, 0xFFFFFFFF#64), (6#5, 0x1#64)]) 0x1000#64 4 0x0062C463) (fun t =>
      t.pc == 0x1008#64) = true := by
  decide

/-- 95_test_vectors.md 5.2: bltu x5, x6, 8 (0xFFFFFFFF < 1 is false) RV32. -/
theorem test_bltu_not_taken :
    runs (code (bench .rv32 [(5#5, 0xFFFFFFFF#64), (6#5, 0x1#64)]) 0x1000#64 4 0x0062E463) (fun t =>
      t.pc == 0x1004#64) = true := by
  decide

/-- 95_test_vectors.md 5.2: bge x5, x6, 8 (equal) RV32. -/
theorem test_bge_equal :
    runs (code (bench .rv32 [(5#5, 0x5#64), (6#5, 0x5#64)]) 0x1000#64 4 0x0062D463) (fun t =>
      t.pc == 0x1008#64) = true := by
  decide

/-- 95_test_vectors.md 5.2: bgeu x5, x6, 8 RV64. -/
theorem test_bgeu :
    runs (code (bench .rv64 [(5#5, 0x8000000000000000#64), (6#5, 0x1#64)]) 0x1000#64 4 0x0062F463) (fun t =>
      t.pc == 0x1008#64) = true := by
  decide

/-- 95_test_vectors.md 5.3: lb x6, 0(x5) RV32. -/
theorem test_lb_extends :
    runs (code (bench .rv32 [(5#5, 0x2000#64)]) 0x1000#64 4 0x00028303) (fun t =>
      t.readX 6#5 == 0xFFFFFF80#64 && t.pc == 0x1004#64) = true := by
  decide

/-- 95_test_vectors.md 5.3: lbu x6, 0(x5) RV32. -/
theorem test_lbu :
    runs (code (bench .rv32 [(5#5, 0x2000#64)]) 0x1000#64 4 0x0002C303) (fun t =>
      t.readX 6#5 == 0x00000080#64 && t.pc == 0x1004#64) = true := by
  decide

/-- 95_test_vectors.md 5.3: lh x6, 0(x5) RV32. -/
theorem test_lh_extends :
    runs (code (bench .rv32 [(5#5, 0x2000#64)]) 0x1000#64 4 0x00029303) (fun t =>
      t.readX 6#5 == 0xFFFFFF80#64 && t.pc == 0x1004#64) = true := by
  decide

/-- 95_test_vectors.md 5.3: lhu x6, 1(x5) (misaligned) RV32. -/
theorem test_lhu_misaligned :
    runs (code (bench .rv32 [(5#5, 0x2000#64)]) 0x1000#64 4 0x0012D303) (fun t =>
      t.readX 6#5 == 0x000034FF#64 && t.pc == 0x1004#64) = true := by
  decide

/-- 95_test_vectors.md 5.3: lw x6, 4(x5) RV64. -/
theorem test_lw_extends :
    runs (code (bench .rv64 [(5#5, 0x2000#64)]) 0x1000#64 4 0x0042A303) (fun t =>
      t.readX 6#5 == 0xFFFFFFFF82345678#64 && t.pc == 0x1004#64) = true := by
  decide

/-- 95_test_vectors.md 5.3: lwu x6, 4(x5) RV64. -/
theorem test_lwu :
    runs (code (bench .rv64 [(5#5, 0x2000#64)]) 0x1000#64 4 0x0042E303) (fun t =>
      t.readX 6#5 == 0x0000000082345678#64 && t.pc == 0x1004#64) = true := by
  decide

/-- 95_test_vectors.md 5.3: ld x6, 0(x5) RV64. -/
theorem test_ld :
    runs (code (bench .rv64 [(5#5, 0x2000#64)]) 0x1000#64 4 0x0002B303) (fun t =>
      t.readX 6#5 == 0x823456781234FF80#64 && t.pc == 0x1004#64) = true := by
  decide

/-- 95_test_vectors.md 5.3: lw x6, -2(x5) (spans 0x2FFE..0x3001) RV32. -/
theorem test_lw_spans_pages :
    runs (code (bench .rv32 [(5#5, 0x3000#64)]) 0x1000#64 4 0xFFE2A303) (fun t =>
      t.readX 6#5 == 0xDEADBEEF#64 && t.pc == 0x1004#64) = true := by
  decide

/-- 95_test_vectors.md 5.3: lb x0, 0(x5) (unmapped, rd = x0) RV32. -/
theorem test_lb_faults_to_x0 :
    traps (code (bench .rv32 [(5#5, 0x5000#64)]) 0x1000#64 4 0x00028003) .outOfBoundsFault 0x5000#64 = true := by
  decide

/-- 95_test_vectors.md 5.3: sb x6, 8(x5) RV32. -/
theorem test_sb :
    runs (code (bench .rv32 [(5#5, 0x2000#64), (6#5, 0x12345678#64)]) 0x1000#64 4 0x00628423) (fun t =>
      t.loadValue 0x2008#64 4 == 0x00000078#64 && t.pc == 0x1004#64) = true := by
  decide

/-- 95_test_vectors.md 5.3: sh x6, 9(x5) (misaligned) RV32. -/
theorem test_sh_misaligned :
    runs (code (bench .rv32 [(5#5, 0x2000#64), (6#5, 0xABCD#64)]) 0x1000#64 4 0x006294A3) (fun t =>
      t.loadValue 0x2008#64 4 == 0x00ABCD00#64 && t.pc == 0x1004#64) = true := by
  decide

/-- 95_test_vectors.md 5.3: sw x6, 0(x5) (read-only page) RV32. -/
theorem test_sw_read_only :
    traps (code (bench .rv32 [(5#5, 0x3000#64), (6#5, 0x1#64)]) 0x1000#64 4 0x0062A023) .writeFault 0x3000#64 = true
      := by
  decide

/-- 95_test_vectors.md 5.3: sw x6, -2(x5) (second page read-only) RV32. -/
theorem test_sw_split :
    traps (code (bench .rv32 [(5#5, 0x3000#64), (6#5, 0x1#64)]) 0x1000#64 4 0xFE62AF23) .writeFault 0x2FFE#64 = true
      := by
  decide

/-- 95_test_vectors.md 5.3: sd x6, 8(x5) RV64. -/
theorem test_sd :
    runs (code (bench .rv64 [(5#5, 0x2000#64), (6#5, 0x102030405060708#64)]) 0x1000#64 4 0x0062B423) (fun t =>
      t.loadValue 0x2008#64 8 == 0x0102030405060708#64 && t.pc == 0x1004#64) = true := by
  decide

/-- 95_test_vectors.md 5.4: mul x7, x5, x6 (low bits) RV32. -/
theorem test_mul :
    runs (code (bench .rv32 [(5#5, 0x80000001#64), (6#5, 0x2#64)]) 0x1000#64 4 0x026283B3) (fun t =>
      t.readX 7#5 == 0x00000002#64 && t.pc == 0x1004#64) = true := by
  decide

/-- 95_test_vectors.md 5.4: mulh x7, x5, x6 (-1 * -1) RV32. -/
theorem test_mulh :
    runs (code (bench .rv32 [(5#5, 0xFFFFFFFF#64), (6#5, 0xFFFFFFFF#64)]) 0x1000#64 4 0x026293B3) (fun t =>
      t.readX 7#5 == 0x00000000#64 && t.pc == 0x1004#64) = true := by
  decide

/-- 95_test_vectors.md 5.4: mulhsu x7, x5, x6 (-1 * 0xFFFFFFFF) RV32. -/
theorem test_mulhsu :
    runs (code (bench .rv32 [(5#5, 0xFFFFFFFF#64), (6#5, 0xFFFFFFFF#64)]) 0x1000#64 4 0x0262A3B3) (fun t =>
      t.readX 7#5 == 0xFFFFFFFF#64 && t.pc == 0x1004#64) = true := by
  decide

/-- 95_test_vectors.md 5.4: mulhu x7, x5, x6 RV32. -/
theorem test_mulhu :
    runs (code (bench .rv32 [(5#5, 0xFFFFFFFF#64), (6#5, 0xFFFFFFFF#64)]) 0x1000#64 4 0x0262B3B3) (fun t =>
      t.readX 7#5 == 0xFFFFFFFE#64 && t.pc == 0x1004#64) = true := by
  decide

/-- 95_test_vectors.md 5.4: div x7, x5, x6 (-7 / 2) RV32. -/
theorem test_div_truncates :
    runs (code (bench .rv32 [(5#5, 0xFFFFFFF9#64), (6#5, 0x2#64)]) 0x1000#64 4 0x0262C3B3) (fun t =>
      t.readX 7#5 == 0xFFFFFFFD#64 && t.pc == 0x1004#64) = true := by
  decide

/-- 95_test_vectors.md 5.4: div x7, x5, x6 (MIN / -1) RV64. -/
theorem test_div_overflow :
    runs (code (bench .rv64 [(5#5, 0x8000000000000000#64), (6#5, 0xFFFFFFFFFFFFFFFF#64)]) 0x1000#64 4 0x0262C3B3)
      (fun t =>
      t.readX 7#5 == 0x8000000000000000#64 && t.pc == 0x1004#64) = true := by
  decide

/-- 95_test_vectors.md 5.4: divu x7, x5, x6 (/ 0) RV64. -/
theorem test_divu_by_zero :
    runs (code (bench .rv64 [(5#5, 0x5#64), (6#5, 0x0#64)]) 0x1000#64 4 0x0262D3B3) (fun t =>
      t.readX 7#5 == 0xFFFFFFFFFFFFFFFF#64 && t.pc == 0x1004#64) = true := by
  decide

/-- 95_test_vectors.md 5.4: rem x7, x5, x6 (-7 rem 2) RV32. -/
theorem test_rem_sign :
    runs (code (bench .rv32 [(5#5, 0xFFFFFFF9#64), (6#5, 0x2#64)]) 0x1000#64 4 0x0262E3B3) (fun t =>
      t.readX 7#5 == 0xFFFFFFFF#64 && t.pc == 0x1004#64) = true := by
  decide

/-- 95_test_vectors.md 5.4: rem x7, x5, x6 (rem 0) RV32. -/
theorem test_rem_by_zero :
    runs (code (bench .rv32 [(5#5, 0xFFFFFFF9#64), (6#5, 0x0#64)]) 0x1000#64 4 0x0262E3B3) (fun t =>
      t.readX 7#5 == 0xFFFFFFF9#64 && t.pc == 0x1004#64) = true := by
  decide

/-- 95_test_vectors.md 5.4: remu x7, x5, x6 (rem 0) RV32. -/
theorem test_remu_by_zero :
    runs (code (bench .rv32 [(5#5, 0xFFFFFFF9#64), (6#5, 0x0#64)]) 0x1000#64 4 0x0262F3B3) (fun t =>
      t.readX 7#5 == 0xFFFFFFF9#64 && t.pc == 0x1004#64) = true := by
  decide

/-- 95_test_vectors.md 5.4: mulw x7, x5, x6 RV64. -/
theorem test_mulw :
    runs (code (bench .rv64 [(5#5, 0x10000#64), (6#5, 0x8000#64)]) 0x1000#64 4 0x026283BB) (fun t =>
      t.readX 7#5 == 0xFFFFFFFF80000000#64 && t.pc == 0x1004#64) = true := by
  decide

/-- 95_test_vectors.md 5.4: divw x7, x5, x6 (MIN / -1) RV64. -/
theorem test_divw_overflow :
    runs (code (bench .rv64 [(5#5, 0x80000000#64), (6#5, 0xFFFFFFFF#64)]) 0x1000#64 4 0x0262C3BB) (fun t =>
      t.readX 7#5 == 0xFFFFFFFF80000000#64 && t.pc == 0x1004#64) = true := by
  decide

/-- 95_test_vectors.md 5.4: divuw x7, x5, x6 (/ 0) RV64. -/
theorem test_divuw_by_zero :
    runs (code (bench .rv64 [(5#5, 0x7#64), (6#5, 0x100000000#64)]) 0x1000#64 4 0x0262D3BB) (fun t =>
      t.readX 7#5 == 0xFFFFFFFFFFFFFFFF#64 && t.pc == 0x1004#64) = true := by
  decide

/-- 95_test_vectors.md 5.4: remw x7, x5, x6 (rem 0) RV64. -/
theorem test_remw_by_zero :
    runs (code (bench .rv64 [(5#5, 0xFFFFFFFF#64), (6#5, 0x0#64)]) 0x1000#64 4 0x0262E3BB) (fun t =>
      t.readX 7#5 == 0xFFFFFFFFFFFFFFFF#64 && t.pc == 0x1004#64) = true := by
  decide

/-- 95_test_vectors.md 5.4: remuw x7, x5, x6 RV64. -/
theorem test_remuw :
    runs (code (bench .rv64 [(5#5, 0xFFFFFFFF#64), (6#5, 0x10#64)]) 0x1000#64 4 0x0262F3BB) (fun t =>
      t.readX 7#5 == 0x000000000000000F#64 && t.pc == 0x1004#64) = true := by
  decide

/-- 95_test_vectors.md 5.5: lr.w x7, (x5) RV64. -/
theorem test_lr_w :
    runs (code (atomics (bench .rv64 [(5#5, 0x2000#64)])) 0x1000#64 4 0x1002A3AF) (fun t =>
      t.readX 7#5 == 0xFFFFFFFF80000001#64 && t.pc == 0x1004#64 && t.reservation == some { addr := 0x2000#64, size :=
      .word }) = true := by
  decide

/-- 95_test_vectors.md 5.5: sc.w x8, x6, (x5) (reservation (0x2000, 4)) RV32. -/
theorem test_sc_w_succeeds :
    runs (code (held (atomics (bench .rv32 [(5#5, 0x2000#64), (6#5, 0x2#64)])) 0x2000#64 .word) 0x1000#64 4
      0x1862A42F) (fun t =>
      t.readX 8#5 == 0x00000000#64 && t.loadValue 0x2000#64 4 == 0x00000002#64 && t.pc == 0x1004#64 && t.reservation
      == none) = true := by
  decide

/-- 95_test_vectors.md 5.5: sc.w x8, x6, (x5) (reservation (0x2000, 8)) RV64. -/
theorem test_sc_w_other_size :
    runs (code (held (atomics (bench .rv64 [(5#5, 0x2000#64), (6#5, 0x2#64)])) 0x2000#64 .double) 0x1000#64 4
      0x1862A42F) (fun t =>
      t.readX 8#5 == 0x0000000000000001#64 && t.loadValue 0x2000#64 4 == 0x80000001#64 && t.pc == 0x1004#64 &&
      t.reservation == none) = true := by
  decide

/-- 95_test_vectors.md 5.5: amoadd.w x7, x6, (x5) RV32. -/
theorem test_amoadd_w :
    runs (code (atomics (bench .rv32 [(5#5, 0x2000#64), (6#5, 0x2#64)])) 0x1000#64 4 0x0062A3AF) (fun t =>
      t.readX 7#5 == 0x80000001#64 && t.loadValue 0x2000#64 4 == 0x80000003#64 && t.pc == 0x1004#64) = true := by
  decide

/-- 95_test_vectors.md 5.5: amoswap.w x7, x6, (x5) RV64. -/
theorem test_amoswap_w :
    runs (code (atomics (bench .rv64 [(5#5, 0x2000#64), (6#5, 0x2#64)])) 0x1000#64 4 0x0862A3AF) (fun t =>
      t.readX 7#5 == 0xFFFFFFFF80000001#64 && t.loadValue 0x2000#64 4 == 0x00000002#64 && t.pc == 0x1004#64) = true
      := by
  decide

/-- 95_test_vectors.md 5.5: amomax.w x7, x6, (x5) (signed) RV32. -/
theorem test_amomax_w_signed :
    runs (code (atomics (bench .rv32 [(5#5, 0x2000#64), (6#5, 0x2#64)])) 0x1000#64 4 0xA062A3AF) (fun t =>
      t.readX 7#5 == 0x80000001#64 && t.loadValue 0x2000#64 4 == 0x00000002#64 && t.pc == 0x1004#64) = true := by
  decide

/-- 95_test_vectors.md 5.5: amominu.w x7, x6, (x5) (unsigned) RV32. -/
theorem test_amominu_w :
    runs (code (atomics (bench .rv32 [(5#5, 0x2000#64), (6#5, 0x2#64)])) 0x1000#64 4 0xC062A3AF) (fun t =>
      t.readX 7#5 == 0x80000001#64 && t.loadValue 0x2000#64 4 == 0x00000002#64 && t.pc == 0x1004#64) = true := by
  decide

/-- 95_test_vectors.md 5.5: amomaxu.d x7, x6, (x5) RV64. -/
theorem test_amomaxu_d :
    runs (code (atomics (bench .rv64 [(5#5, 0x2008#64), (6#5, 0x2#64)])) 0x1000#64 4 0xE062B3AF) (fun t =>
      t.readX 7#5 == 0x8000000000000001#64 && t.loadValue 0x2008#64 8 == 0x8000000000000001#64 && t.pc == 0x1004#64)
      = true := by
  decide

/-- 95_test_vectors.md 5.5: amoadd.w x7, x6, (x5) (misaligned) RV32. -/
theorem test_amoadd_w_misaligned :
    traps (code (atomics (bench .rv32 [(5#5, 0x2002#64), (6#5, 0x2#64)])) 0x1000#64 4 0x0062A3AF) .misalignedFault
      0x2002#64 = true := by
  decide

/-- 95_test_vectors.md 5.6: c.li x10, -1 RV32. -/
theorem test_c_li :
    runs (code (bench .rv32 []) 0x1000#64 2 0x557D) (fun t =>
      t.readX 10#5 == 0xFFFFFFFF#64 && t.pc == 0x1002#64) = true := by
  decide

/-- 95_test_vectors.md 5.6: c.lui x10, 0x3F (nzimm[17:12] = -1) RV32. -/
theorem test_c_lui :
    runs (code (bench .rv32 []) 0x1000#64 2 0x757D) (fun t =>
      t.readX 10#5 == 0xFFFFF000#64 && t.pc == 0x1002#64) = true := by
  decide

/-- 95_test_vectors.md 5.6: c.addi16sp -512 RV32. -/
theorem test_c_addi16sp :
    runs (code (bench .rv32 [(2#5, 0x3000#64)]) 0x1000#64 2 0x7101) (fun t =>
      t.readX 2#5 == 0x00002E00#64 && t.pc == 0x1002#64) = true := by
  decide

/-- 95_test_vectors.md 5.6: c.addi4spn x8, 1020 RV32. -/
theorem test_c_addi4spn :
    runs (code (bench .rv32 [(2#5, 0x2000#64)]) 0x1000#64 2 0x1FE0) (fun t =>
      t.readX 8#5 == 0x000023FC#64 && t.pc == 0x1002#64) = true := by
  decide

/-- 95_test_vectors.md 5.6: c.srai x8, 31 RV32. -/
theorem test_c_srai :
    runs (code (bench .rv32 [(8#5, 0x80000000#64)]) 0x1000#64 2 0x847D) (fun t =>
      t.readX 8#5 == 0xFFFFFFFF#64 && t.pc == 0x1002#64) = true := by
  decide

/-- 95_test_vectors.md 5.6: c.srli x8, 32 RV64. -/
theorem test_c_srli_rv64 :
    runs (code (bench .rv64 [(8#5, 0x8000000000000000#64)]) 0x1000#64 2 0x9001) (fun t =>
      t.readX 8#5 == 0x0000000080000000#64 && t.pc == 0x1002#64) = true := by
  decide

/-- 95_test_vectors.md 5.6: c.sub x8, x9 RV32. -/
theorem test_c_sub :
    runs (code (bench .rv32 [(8#5, 0x1#64), (9#5, 0x2#64)]) 0x1000#64 2 0x8C05) (fun t =>
      t.readX 8#5 == 0xFFFFFFFF#64 && t.pc == 0x1002#64) = true := by
  decide

/-- 95_test_vectors.md 5.6: c.addw x8, x9 RV64. -/
theorem test_c_addw :
    runs (code (bench .rv64 [(8#5, 0x7FFFFFFF#64), (9#5, 0x1#64)]) 0x1000#64 2 0x9C25) (fun t =>
      t.readX 8#5 == 0xFFFFFFFF80000000#64 && t.pc == 0x1002#64) = true := by
  decide

/-- 95_test_vectors.md 5.6: c.mv x10, x11 RV32. -/
theorem test_c_mv :
    runs (code (bench .rv32 [(11#5, 0x55#64)]) 0x1000#64 2 0x852E) (fun t =>
      t.readX 10#5 == 0x00000055#64 && t.pc == 0x1002#64) = true := by
  decide

/-- 95_test_vectors.md 5.6: c.add x10, x11 RV32. -/
theorem test_c_add :
    runs (code (bench .rv32 [(10#5, 0xFFFFFFFF#64), (11#5, 0x2#64)]) 0x1000#64 2 0x952E) (fun t =>
      t.readX 10#5 == 0x00000001#64 && t.pc == 0x1002#64) = true := by
  decide

/-- 95_test_vectors.md 5.6: c.jal 0x7FE (RV32) RV32. -/
theorem test_c_jal :
    runs (code (bench .rv32 []) 0x1000#64 2 0x2FFD) (fun t =>
      t.readX 1#5 == 0x00001002#64 && t.pc == 0x17FE#64) = true := by
  decide

/-- 95_test_vectors.md 5.6: c.j -2 RV32. -/
theorem test_c_j_backward :
    runs (code (bench .rv32 []) 0x1000#64 2 0xBFFD) (fun t =>
      t.pc == 0xFFE#64) = true := by
  decide

/-- 95_test_vectors.md 5.6: c.jr x5 RV32. -/
theorem test_c_jr :
    runs (code (bench .rv32 [(5#5, 0x1100#64)]) 0x1000#64 2 0x8282) (fun t =>
      t.pc == 0x1100#64) = true := by
  decide

/-- 95_test_vectors.md 5.6: c.jalr x1 (target from old x1) RV32. -/
theorem test_c_jalr_x1 :
    runs (code (bench .rv32 [(1#5, 0x1100#64)]) 0x1000#64 2 0x9082) (fun t =>
      t.readX 1#5 == 0x00001002#64 && t.pc == 0x1100#64) = true := by
  decide

/-- 95_test_vectors.md 5.6: c.beqz x8, 254 RV32. -/
theorem test_c_beqz :
    runs (code (bench .rv32 [(8#5, 0x0#64)]) 0x1000#64 2 0xCC7D) (fun t =>
      t.pc == 0x10FE#64) = true := by
  decide

/-- 95_test_vectors.md 5.6: c.bnez x8, -256 RV32. -/
theorem test_c_bnez_backward :
    runs (code (bench .rv32 [(8#5, 0x1#64)]) 0x1000#64 2 0xF001) (fun t =>
      t.pc == 0xF00#64) = true := by
  decide

/-- 95_test_vectors.md 5.6: c.lwsp x10, 4(sp) RV32. -/
theorem test_c_lwsp :
    runs (code (bench .rv32 [(2#5, 0x1FFC#64)]) 0x1000#64 2 0x4512) (fun t =>
      t.readX 10#5 == 0x1234FF80#64 && t.pc == 0x1002#64) = true := by
  decide

/-- 95_test_vectors.md 5.6: c.swsp x10, 8(sp) RV32. -/
theorem test_c_swsp :
    runs (code (bench .rv32 [(2#5, 0x2000#64), (10#5, 0xCAFEBABE#64)]) 0x1000#64 2 0xC42A) (fun t =>
      t.loadValue 0x2008#64 4 == 0xCAFEBABE#64 && t.pc == 0x1002#64) = true := by
  decide

/-- 95_test_vectors.md 5.6: c.ldsp x10, 0(sp) RV64. -/
theorem test_c_ldsp :
    runs (code (bench .rv64 [(2#5, 0x2000#64)]) 0x1000#64 2 0x6502) (fun t =>
      t.readX 10#5 == 0x823456781234FF80#64 && t.pc == 0x1002#64) = true := by
  decide

/-- 95_test_vectors.md 5.6: c.sdsp x10, 8(sp) RV64. -/
theorem test_c_sdsp :
    runs (code (bench .rv64 [(2#5, 0x2000#64), (10#5, 0x1122334455667788#64)]) 0x1000#64 2 0xE42A) (fun t =>
      t.loadValue 0x2008#64 8 == 0x1122334455667788#64 && t.pc == 0x1002#64) = true := by
  decide

/-- 95_test_vectors.md 5.6: c.lw x8, 0(x9) RV64. -/
theorem test_c_lw :
    runs (code (bench .rv64 [(9#5, 0x2004#64)]) 0x1000#64 2 0x4080) (fun t =>
      t.readX 8#5 == 0xFFFFFFFF82345678#64 && t.pc == 0x1002#64) = true := by
  decide

/-- 95_test_vectors.md 5.6: c.ebreak (no debug handler) RV32. -/
theorem test_c_ebreak :
    traps (code (bench .rv32 []) 0x1000#64 2 0x9002) .unhandledSyscall 0x9002#64 = true := by
  decide

/-- 95_test_vectors.md 5.6: 0x0000 (reserved) RV32. -/
theorem test_halfword_zero :
    traps (code (bench .rv32 []) 0x1000#64 2 0x0000) .illegalInstruction 0x0#64 = true := by
  decide

/-- 95_test_vectors.md 5.6: c.slli x10, 32 = 0x1502 RV64. -/
theorem test_c_slli_rv64 :
    runs (code (bench .rv64 [(10#5, 0x1#64)]) 0x1000#64 2 0x1502) (fun t =>
      t.readX 10#5 == 0x0000000100000000#64 && t.pc == 0x1002#64) = true := by
  decide

/-- 95_test_vectors.md 5.6: c.addi x10, 1 with EXT_C false RV32. -/
theorem test_compressed_disabled :
    traps (code (withoutC (bench .rv32 [(10#5, 0x1#64)])) 0x1000#64 2 0x0505) .unimplementedInstruction 0x505#64 =
      true := by
  decide

/-- 95_test_vectors.md 5.8: host-set pc = 0x1001 RV32. -/
theorem test_pc_odd :
    traps (code { bench .rv32 [] with pc := 0x1001#64 } 0x1000#64 4 0x00100293) .misalignedFault 0x1001#64 = true :=
      by
  decide

/-- 95_test_vectors.md 5.8: host-set pc = 0x1002 with EXT_C false RV32. -/
theorem test_pc_misaligned :
    traps (code { withoutC (bench .rv32 []) with pc := 0x1002#64 } 0x1000#64 8 0x0010029300100293) .misalignedFault
      0x1002#64 = true := by
  decide

/-- 95_test_vectors.md 5.8: 32-bit word at 0x1FFE, second half on a non-executable page RV32. -/
theorem test_fetch_second_half :
    traps (code { bench .rv32 [] with pc := 0x1FFE#64 } 0x1FFE#64 2 0x0013) .executionFault 0x2000#64 = true := by
  decide

/-- 95_test_vectors.md 5.8: fetch from unmapped 0x5000 RV32. -/
theorem test_fetch_unmapped :
    traps { bench .rv32 [] with pc := 0x5000#64 } .executionFault 0x5000#64 = true := by
  decide

/-- 95_test_vectors.md 5.8: fetch from the read-only data page 0x3000 RV32. -/
theorem test_fetch_no_execute :
    traps { bench .rv32 [] with pc := 0x3000#64 } .executionFault 0x3000#64 = true := by
  decide

/-- 95_test_vectors.md 5.8: fetch at the cap 0x100000 RV32. -/
theorem test_fetch_at_cap :
    traps { bench .rv32 [] with pc := 0x100000#64 } .outOfBoundsFault 0x100000#64 = true := by
  decide

/-- 95_test_vectors.md 5.8: fence (fm, pred, succ unchecked) RV32. -/
theorem test_fence :
    runs (code (bench .rv32 []) 0x1000#64 4 0x8FF2830F) (fun t =>
      t.pc == 0x1004#64) = true := by
  decide

/-- 95_test_vectors.md 5.8: fence.i RV32. -/
theorem test_fence_i :
    runs (code (bench .rv32 []) 0x1000#64 4 0x0000100F) (fun t =>
      t.pc == 0x1004#64) = true := by
  decide

/-- 95_test_vectors.md 5.8: ecall, x17 = 64, no handler 64 RV32. -/
theorem test_ecall_no_handler :
    traps (code (bench .rv32 [(17#5, 0x40#64)]) 0x1000#64 4 0x00000073) .unhandledSyscall 0x40#64 = true := by
  decide

/-- 95_test_vectors.md 5.8: ebreak, no debug handler RV32. -/
theorem test_ebreak_no_handler :
    traps (code (bench .rv32 []) 0x1000#64 4 0x00100073) .unhandledSyscall 0x100073#64 = true := by
  decide

/-- 95_test_vectors.md 5.8: csrrs x5, instret, x0 (first instruction of a run) RV32. -/
theorem test_csrrs_instret :
    runs (code (bench .rv32 []) 0x1000#64 4 0xC02022F3) (fun t =>
      t.readX 5#5 == 0x00000000#64 && t.pc == 0x1004#64) = true := by
  decide

/-- 95_test_vectors.md 5.8: csrrw x5, cycle, x6 (read-only) RV32. -/
theorem test_csrrw_read_only :
    traps (code (bench .rv32 [(6#5, 0x1#64)]) 0x1000#64 4 0xC00312F3) .illegalInstruction 0xC00312F3#64 = true := by
  decide

/-- 95_test_vectors.md 5.8: csrrs x5, mstatus (0x300), x0 (no such CSR) RV32. -/
theorem test_csrrs_no_such_csr :
    traps (code (bench .rv32 []) 0x1000#64 4 0x300022F3) .illegalInstruction 0x300022F3#64 = true := by
  decide

/-- 95_test_vectors.md 5.7: fadd.s f3, f1, f2, rne f1 = 1.5 (0x3FC00000 boxed), f2 = 2.25 (0x40100000 boxed). -/
theorem test_fadd_s :
    runs (code (floats (bench .rv32 []) [(1#5, 0xFFFFFFFF3FC00000#64), (2#5, 0xFFFFFFFF40100000#64)]) 0x1000#64 4
      0x002081D3) (fun t =>
      t.readF 3#5 == 0xFFFFFFFF40700000#64 && t.fcsr == 0x0#8) = true := by
  decide

/-- 95_test_vectors.md 5.7: fadd.s f3, f1, f2, rne (tie to even) f1 = 1.0, f2 = 2^-24 (0x33800000). -/
theorem test_fadd_s_tie :
    runs (code (floats (bench .rv32 []) [(1#5, 0xFFFFFFFF3F800000#64), (2#5, 0xFFFFFFFF33800000#64)]) 0x1000#64 4
      0x002081D3) (fun t =>
      t.readF 3#5 == 0xFFFFFFFF3F800000#64 && t.fcsr == 0x1#8) = true := by
  decide

/-- 95_test_vectors.md 5.7: fsub.s f3, f1, f2, rdn (exact zero) f1 = f2 = 1.0. -/
theorem test_fsub_s_zero_rdn :
    runs (code (floats (bench .rv32 []) [(1#5, 0xFFFFFFFF3F800000#64), (2#5, 0xFFFFFFFF3F800000#64)]) 0x1000#64 4
      0x0820A1D3) (fun t =>
      t.readF 3#5 == 0xFFFFFFFF80000000#64 && t.fcsr == 0x0#8) = true := by
  decide

/-- 95_test_vectors.md 5.7: fmul.s, max * 2, rne f1 = 0x7F7FFFFF, f2 = 2.0. -/
theorem test_fmul_s_overflow :
    runs (code (floats (bench .rv32 []) [(1#5, 0xFFFFFFFF7F7FFFFF#64), (2#5, 0xFFFFFFFF40000000#64)]) 0x1000#64 4
      0x102081D3) (fun t =>
      t.readF 3#5 == 0xFFFFFFFF7F800000#64 && t.fcsr == 0x5#8) = true := by
  decide

/-- 95_test_vectors.md 5.7: fmul.s, tiny inexact f1 = 0x00800001, f2 = 0.5. -/
theorem test_fmul_s_tiny :
    runs (code (floats (bench .rv32 []) [(1#5, 0xFFFFFFFF00800001#64), (2#5, 0xFFFFFFFF3F000000#64)]) 0x1000#64 4
      0x102081D3) (fun t =>
      t.readF 3#5 == 0xFFFFFFFF00400000#64 && t.fcsr == 0x3#8) = true := by
  decide

/-- 95_test_vectors.md 5.7: fdiv.s, 1 / 3, rup 1.0, 3.0. -/
theorem test_fdiv_s_rup :
    runs (code (floats (bench .rv32 []) [(1#5, 0xFFFFFFFF3F800000#64), (2#5, 0xFFFFFFFF40400000#64)]) 0x1000#64 4
      0x1820B1D3) (fun t =>
      t.readF 3#5 == 0xFFFFFFFF3EAAAAAB#64 && t.fcsr == 0x1#8) = true := by
  decide

/-- 95_test_vectors.md 5.7: fdiv.s, -1 / +0 -1.0, +0. -/
theorem test_fdiv_s_by_zero :
    runs (code (floats (bench .rv32 []) [(1#5, 0xFFFFFFFFBF800000#64), (2#5, 0xFFFFFFFF00000000#64)]) 0x1000#64 4
      0x182081D3) (fun t =>
      t.readF 3#5 == 0xFFFFFFFFFF800000#64 && t.fcsr == 0x8#8) = true := by
  decide

/-- 95_test_vectors.md 5.7: fsqrt.s, -0 -0. -/
theorem test_fsqrt_s_negative_zero :
    runs (code (floats (bench .rv32 []) [(1#5, 0xFFFFFFFF80000000#64)]) 0x1000#64 4 0x580081D3) (fun t =>
      t.readF 3#5 == 0xFFFFFFFF80000000#64 && t.fcsr == 0x0#8) = true := by
  decide

/-- 95_test_vectors.md 5.7: fmadd.s (fused) f1 = 0x3F800001, f2 = 0x3F7FFFFE, f4 = -1.0. -/
theorem test_fmadd_s_fused :
    runs (code (floats (bench .rv32 []) [(1#5, 0xFFFFFFFF3F800001#64), (2#5, 0xFFFFFFFF3F7FFFFE#64), (4#5,
      0xFFFFFFFFBF800000#64)]) 0x1000#64 4 0x202081C3) (fun t =>
      t.readF 3#5 == 0xFFFFFFFFA8800000#64 && t.fcsr == 0x0#8) = true := by
  decide

/-- 95_test_vectors.md 5.7: fnmadd.s -(2*3)-1 2.0, 3.0, 1.0. -/
theorem test_fnmadd_s :
    runs (code (floats (bench .rv32 []) [(1#5, 0xFFFFFFFF40000000#64), (2#5, 0xFFFFFFFF40400000#64), (4#5,
      0xFFFFFFFF3F800000#64)]) 0x1000#64 4 0x202081CF) (fun t =>
      t.readF 3#5 == 0xFFFFFFFFC0E00000#64 && t.fcsr == 0x0#8) = true := by
  decide

/-- 95_test_vectors.md 5.7: fmadd.s inf * 0 + qNaN +inf, +0, qNaN. -/
theorem test_fmadd_s_inf_zero_nan :
    runs (code (floats (bench .rv32 []) [(1#5, 0xFFFFFFFF7F800000#64), (2#5, 0xFFFFFFFF00000000#64), (4#5,
      0xFFFFFFFF7FC00000#64)]) 0x1000#64 4 0x202081C3) (fun t =>
      t.readF 3#5 == 0xFFFFFFFF7FC00000#64 && t.fcsr == 0x10#8) = true := by
  decide

/-- 95_test_vectors.md 5.7: fmin.s -0, +0 -0, +0. -/
theorem test_fmin_s_zeros :
    runs (code (floats (bench .rv32 []) [(1#5, 0xFFFFFFFF80000000#64), (2#5, 0xFFFFFFFF00000000#64)]) 0x1000#64 4
      0x282081D3) (fun t =>
      t.readF 3#5 == 0xFFFFFFFF80000000#64 && t.fcsr == 0x0#8) = true := by
  decide

/-- 95_test_vectors.md 5.7: fmax.s qNaN, sNaN qNaN, sNaN. -/
theorem test_fmax_s_nans :
    runs (code (floats (bench .rv32 []) [(1#5, 0xFFFFFFFF7FC00000#64), (2#5, 0xFFFFFFFF7F800001#64)]) 0x1000#64 4
      0x282091D3) (fun t =>
      t.readF 3#5 == 0xFFFFFFFF7FC00000#64 && t.fcsr == 0x10#8) = true := by
  decide

/-- 95_test_vectors.md 5.7: fsgnjn.s f3, f1, f1 (fneg) f1 = 0x7F800001 (sNaN). -/
theorem test_fsgnjn_s_nan :
    runs (code (floats (bench .rv32 []) [(1#5, 0xFFFFFFFF7F800001#64)]) 0x1000#64 4 0x201091D3) (fun t =>
      t.readF 3#5 == 0xFFFFFFFFFF800001#64 && t.fcsr == 0x0#8) = true := by
  decide

/-- 95_test_vectors.md 5.7: fsgnjx.s f3, f1, f2 f1 = -1.0, f2 = -2.0. -/
theorem test_fsgnjx_s :
    runs (code (floats (bench .rv32 []) [(1#5, 0xFFFFFFFFBF800000#64), (2#5, 0xFFFFFFFFC0000000#64)]) 0x1000#64 4
      0x2020A1D3) (fun t =>
      t.readF 3#5 == 0xFFFFFFFF3F800000#64 && t.fcsr == 0x0#8) = true := by
  decide

/-- 95_test_vectors.md 5.7: fcvt.w.s x5, f1, rmm f1 = -2.5 (0xC0200000). -/
theorem test_fcvt_w_s_rmm :
    runs (code (floats (bench .rv32 []) [(1#5, 0xFFFFFFFFC0200000#64)]) 0x1000#64 4 0xC000C2D3) (fun t =>
      t.readX 5#5 == 0xFFFFFFFD#64 && t.fcsr == 0x1#8) = true := by
  decide

/-- 95_test_vectors.md 5.7: fcvt.wu.s x5, f1, rtz f1 = -0.5. -/
theorem test_fcvt_wu_s :
    runs (code (floats (bench .rv32 []) [(1#5, 0xFFFFFFFFBF000000#64)]) 0x1000#64 4 0xC01092D3) (fun t =>
      t.readX 5#5 == 0x00000000#64 && t.fcsr == 0x1#8) = true := by
  decide

/-- 95_test_vectors.md 5.7: fcvt.wu.s x5, f1, rtz (RV64) f1 = 2^31. -/
theorem test_fcvt_wu_s_rv64 :
    runs (code (floats (bench .rv64 []) [(1#5, 0xFFFFFFFF4F000000#64)]) 0x1000#64 4 0xC01092D3) (fun t =>
      t.readX 5#5 == 0xFFFFFFFF80000000#64 && t.fcsr == 0x0#8) = true := by
  decide

/-- 95_test_vectors.md 5.7: fcvt.lu.s x5, f1, rtz (RV64) f1 = NaN. -/
theorem test_fcvt_lu_s_nan :
    runs (code (floats (bench .rv64 []) [(1#5, 0xFFFFFFFF7FC00000#64)]) 0x1000#64 4 0xC03092D3) (fun t =>
      t.readX 5#5 == 0xFFFFFFFFFFFFFFFF#64 && t.fcsr == 0x10#8) = true := by
  decide

/-- 95_test_vectors.md 5.7: fcvt.s.w f3, x5, rne x5 = 16777217. -/
theorem test_fcvt_s_w :
    runs (code (bench .rv32 [(5#5, 0x1000001#64)]) 0x1000#64 4 0xD00281D3) (fun t =>
      t.readF 3#5 == 0xFFFFFFFF4B800000#64 && t.fcsr == 0x1#8) = true := by
  decide

/-- 95_test_vectors.md 5.7: fcvt.s.wu f3, x5, rne x5 = 0xFFFFFFFF. -/
theorem test_fcvt_s_wu :
    runs (code (bench .rv32 [(5#5, 0xFFFFFFFF#64)]) 0x1000#64 4 0xD01281D3) (fun t =>
      t.readF 3#5 == 0xFFFFFFFF4F800000#64 && t.fcsr == 0x1#8) = true := by
  decide

/-- 95_test_vectors.md 5.7: fmv.x.w x5, f1 (RV64) f1 = 0xFFFFFFFF80000000. -/
theorem test_fmv_x_w :
    runs (code (floats (bench .rv64 []) [(1#5, 0xFFFFFFFF80000000#64)]) 0x1000#64 4 0xE00082D3) (fun t =>
      t.readX 5#5 == 0xFFFFFFFF80000000#64 && t.fcsr == 0x0#8) = true := by
  decide

/-- 95_test_vectors.md 5.7: fmv.w.x f3, x5 (RV64) x5 = 0x123456787F800001. -/
theorem test_fmv_w_x :
    runs (code (bench .rv64 [(5#5, 0x123456787F800001#64)]) 0x1000#64 4 0xF00281D3) (fun t =>
      t.readF 3#5 == 0xFFFFFFFF7F800001#64 && t.fcsr == 0x0#8) = true := by
  decide

/-- 95_test_vectors.md 5.7: fclass.s x5, f1 f1 = +subnormal (0x00000001). -/
theorem test_fclass_s :
    runs (code (floats (bench .rv32 []) [(1#5, 0xFFFFFFFF00000001#64)]) 0x1000#64 4 0xE00092D3) (fun t =>
      t.readX 5#5 == 0x020#64 && t.fcsr == 0x0#8) = true := by
  decide

/-- 95_test_vectors.md 5.7: feq.s x5, f1, f2 0x7F800001, 0x3F800000. -/
theorem test_feq_s_snan :
    runs (code (floats (bench .rv32 []) [(1#5, 0xFFFFFFFF7F800001#64), (2#5, 0xFFFFFFFF3F800000#64)]) 0x1000#64 4
      0xA020A2D3) (fun t =>
      t.fcsr == 0x10#8) = true := by
  decide

/-- 95_test_vectors.md 5.7: flt.s x5, f1, f2 0x7FC00000, 0x3F800000. -/
theorem test_flt_s_qnan :
    runs (code (floats (bench .rv32 []) [(1#5, 0xFFFFFFFF7FC00000#64), (2#5, 0xFFFFFFFF3F800000#64)]) 0x1000#64 4
      0xA02092D3) (fun t =>
      t.fcsr == 0x10#8) = true := by
  decide

/-- 95_test_vectors.md 5.7: fle.s x5, f1, f2 0x80000000, 0x00000000. -/
theorem test_fle_s_zeros :
    runs (code (floats (bench .rv32 []) [(1#5, 0xFFFFFFFF80000000#64), (2#5, 0xFFFFFFFF00000000#64)]) 0x1000#64 4
      0xA02082D3) (fun t =>
      t.fcsr == 0x0#8) = true := by
  decide

/-- 95_test_vectors.md 5.7: fadd.s with rm = dyn, frm = 101 any. -/
theorem test_fadd_s_reserved_frm :
    traps (code { bench .rv32 [] with fcsr := 0xA0#8 } 0x1000#64 4 0x0020F1D3) .illegalInstruction 0x20F1D3#64 = true
      := by
  decide

/-- 95_test_vectors.md 5.7: fdiv.d, 1 / 3, rne 1.0, 3.0. -/
theorem test_fdiv_d :
    runs (code (floats (bench .rv32 []) [(1#5, 0x3FF0000000000000#64), (2#5, 0x4008000000000000#64)]) 0x1000#64 4
      0x1A2081D3) (fun t =>
      t.readF 3#5 == 0x3FD5555555555555#64 && t.fcsr == 0x1#8) = true := by
  decide

/-- 95_test_vectors.md 5.7: fadd.d, sNaN + 1 0x7FF0000000000001, 1.0. -/
theorem test_fadd_d_snan :
    runs (code (floats (bench .rv32 []) [(1#5, 0x7FF0000000000001#64), (2#5, 0x3FF0000000000000#64)]) 0x1000#64 4
      0x022081D3) (fun t =>
      t.readF 3#5 == 0x7FF8000000000000#64 && t.fcsr == 0x10#8) = true := by
  decide

/-- 95_test_vectors.md 5.7: fcvt.s.d f3, f1, rne f1 = 0x3FD5555555555555 (about 1/3). -/
theorem test_fcvt_s_d :
    runs (code (floats (bench .rv32 []) [(1#5, 0x3FD5555555555555#64)]) 0x1000#64 4 0x401081D3) (fun t =>
      t.readF 3#5 == 0xFFFFFFFF3EAAAAAB#64 && t.fcsr == 0x1#8) = true := by
  decide

/-- 95_test_vectors.md 5.7: fcvt.d.s f3, f1 (sNaN) f1 = sNaN 0x7F800001 boxed. -/
theorem test_fcvt_d_s_snan :
    runs (code (floats (bench .rv32 []) [(1#5, 0xFFFFFFFF7F800001#64)]) 0x1000#64 4 0x420081D3) (fun t =>
      t.readF 3#5 == 0x7FF8000000000000#64 && t.fcsr == 0x10#8) = true := by
  decide

/-- 95_test_vectors.md 5.7: fcvt.w.d x5, f1, rtz f1 = -2^31. -/
theorem test_fcvt_w_d :
    runs (code (floats (bench .rv32 []) [(1#5, 0xC1E0000000000000#64)]) 0x1000#64 4 0xC20092D3) (fun t =>
      t.readX 5#5 == 0x80000000#64 && t.fcsr == 0x0#8) = true := by
  decide

/-- 95_test_vectors.md 5.7: feq.d x5, f1, f2 sNaN, 1.0. -/
theorem test_feq_d_snan :
    runs (code (floats (bench .rv32 []) [(1#5, 0x7FF0000000000001#64), (2#5, 0x3FF0000000000000#64)]) 0x1000#64 4
      0xA220A2D3) (fun t =>
      t.fcsr == 0x10#8) = true := by
  decide

/-- 95_test_vectors.md 5.7: fclass.d x5, f1 f1 = 0x8000000000000001 (negative subnormal). -/
theorem test_fclass_d :
    runs (code (floats (bench .rv32 []) [(1#5, 0x8000000000000001#64)]) 0x1000#64 4 0xE20092D3) (fun t =>
      t.readX 5#5 == 0x004#64 && t.fcsr == 0x0#8) = true := by
  decide

/-- 95_test_vectors.md 5.7: fmv.x.d x5, f1 (RV64) f1 = 0xFFFFFFFF3F800000. -/
theorem test_fmv_x_d :
    runs (code (floats (bench .rv64 []) [(1#5, 0xFFFFFFFF3F800000#64)]) 0x1000#64 4 0xE20082D3) (fun t =>
      t.readX 5#5 == 0xFFFFFFFF3F800000#64 && t.fcsr == 0x0#8) = true := by
  decide

/-- 95_test_vectors.md 5.7: fcvt.d.wu f3, x5 x5 = 0xFFFFFFFF. -/
theorem test_fcvt_d_wu :
    runs (code (bench .rv32 [(5#5, 0xFFFFFFFF#64)]) 0x1000#64 4 0xD21281D3) (fun t =>
      t.readF 3#5 == 0x41EFFFFFFFE00000#64 && t.fcsr == 0x0#8) = true := by
  decide

/-- 95_test_vectors.md 5.7: fcvt.d.l f3, x5, rne (RV64) x5 = 0x7FFFFFFFFFFFFFFF. -/
theorem test_fcvt_d_l :
    runs (code (bench .rv64 [(5#5, 0x7FFFFFFFFFFFFFFF#64)]) 0x1000#64 4 0xD22281D3) (fun t =>
      t.readF 3#5 == 0x43E0000000000000#64 && t.fcsr == 0x1#8) = true := by
  decide

/-! ### Placing a table word -/

/-- From reset, the step after `withFetchWord` runs the word: `addi x5, x0, 1` (41_integer.md R403). -/
theorem test_withFetchWord :
    (match step (State.reset.withFetchWord 32 0x00100293) with
      | .next t => t.readX 5#5 == 1#64 && t.pc == 4#64
      | _ => false) = true := by
  decide

/-- A row of RV32 alone is placed under RV32: `c.jal 4` links pc + 2 (49_c.md R1014). -/
theorem test_withFetchWord_rv32 :
    decodeTableWord 16 0x2011 = some (.cJal 2#11) ∧
    (match step (State.reset.withFetchWord 16 0x2011) with
      | .next t => t.readX 1#5 == 2#64 && t.pc == 4#64
      | _ => false) = true := by
  decide

/-! ### The host -/

/-- A callback's writes stand, x0 still reads as zero, and pc moves from where it left it (60_exceptions.md R1121). -/
theorem test_hostActs :
    let t := ((bench .rv32 []).hostActs [.setX 10#5 7#64, .setX 0#5 9#64, .setPc 0x1080#64]).retire 4
    t.readX 10#5 = 7#64 ∧ t.readX 0#5 = 0#64 ∧ t.pc = 0x1084#64 ∧ t.instret = 1#64 := by
  decide

/-- Scenario S6 of 95_test_vectors.md: the child's write is not seen by the parent, nor the parent's before the fork
lost by the child. -/
theorem test_fork :
    let p := ((bench .rv32 []).storeValue 0x2000#64 1 0xAA#64).fork
    let c := p.2.storeValue 0x2000#64 1 0xBB#64
    p.2.loadValue 0x2000#64 1 = 0xAA#64 ∧ c.loadValue 0x2000#64 1 = 0xBB#64 ∧ p.1.loadValue 0x2000#64 1 = 0xAA#64 ∧
      p.2.pc = 0x1000#64 := by
  decide

/-- `vmcall` puts its arguments in a0 and a1 and the sentinel in ra (60_exceptions.md R1122). -/
theorem test_vmcall :
    let t := State.reset.vmcall 0x1000#64 0x40#64 [3#64, 4#64] 9#64
    t.readX 10#5 = 3#64 ∧ t.readX 11#5 = 4#64 ∧ t.readX 1#5 = 0x40#64 ∧ t.pc = 0x1000#64 ∧ t.run = .running := by
  decide

/-- `copy_to_guest` writes nothing to a page it may not write. -/
theorem test_copyToGuest_refused :
    ((bench .rv32 []).copyToGuest 0x2FFF#64 [1#8, 2#8]).mem = (bench .rv32 []).mem ∧
    ((bench .rv32 []).copyToGuest 0x2000#64 [1#8, 2#8]).loadValue 0x2000#64 2 = 0x0201#64 := by
  decide

/-! ### Witnesses: the hypotheses of the statements are met, clause by clause -/

/-- x5 = 0x2000, the writable page. -/
def data (xl : Xlen) : State := bench xl [(5#5, 0x2000#64), (6#5, 0x12345678#64)]

/-- x5 = 0x5000, an unmapped page. -/
def hole (xl : Xlen) : State := bench xl [(5#5, 0x5000#64), (6#5, 0x12345678#64)]

/-- x5 = 0x2FFE: a word there has its second half on the read-only page. -/
def split (xl : Xlen) : State := bench xl [(5#5, 0x2FFE#64), (6#5, 0x12345678#64)]

theorem witness_EncodeThenDecode :
    (Instr.slli 1#5 2#5 63#6).wellFormed .rv64 = true ∧ (Instr.slli 1#5 2#5 31#6).wellFormed .rv32 = true ∧
      (Instr.cAddi16sp 32#6).wellFormed .rv32 = true := by
  decide

theorem witness_DecodeThenEncode :
    decodeRow .rv64 (.word 0x03F2D313#32) = some (.srli 6#5 5#5 63#6) ∧
      decodeRow .rv32 (.half 0x0001#16) = some (.cNop 0#6) := by
  decide

theorem witness_DecodeOutcomes :
    let off := { Config.gc .rv32 512 with extC := false, extM := false }
    off.extC = false ∧ (Config.gc .rv64 512).extC = true ∧ decodeRow .rv64 (.half 0#16) = none ∧
      decodeRow .rv32 (.word 0#32) = none ∧
      (decodeRow .rv32 (.word 0x026283B3#32) = some (.mul 7#5 5#5 6#5) ∧
        (Instr.mul 7#5 5#5 6#5).ext.enabled (Config.gc .rv32 512) = true ∧
        (Instr.mul 7#5 5#5 6#5).ext.enabled off = false) := by
  decide

/-- A row of each extension and pair of extensions, the configuration with it and without it (opcode_table.json). -/
theorem witness_DecodeOutcomes_rows :
    let off : Config := { Config.gc .rv32 512 with extM := false, extA := false, extF := false, extD := false }
    let rows := fun (ws : List Nat) (e : Ext) => ws.all fun w =>
      (decodeTableWord (if w % 4 = 3 then 32 else 16) w).map Instr.ext == some e
    rows [0x00000033, 0x00000073, 0x0000100F, 0x00001073] .base = true ∧ rows [0x02000033, 0x0200003B] .m = true ∧
      rows [0x1000202F, 0x0000302F] .a = true ∧ rows [0x00002007, 0x00002027, 0x00000043, 0x00000053] .f = true ∧
      rows [0x00003007, 0x00003027, 0x02000043, 0x02000053, 0x40100053, 0x42000053] .d = true ∧
      rows [0x4000, 0x0001, 0x9002] .c = true ∧
      (decodeRow .rv32 (.half 0x6000#16)).map Instr.ext = some .cf ∧ rows [0x2000, 0xA002] .cd = true ∧
      (([.m, .a, .f, .d, .cf, .cd] : List Ext).all fun e => !e.enabled off && e.enabled (Config.gc .rv32 512)) = true
      := by
  decide

theorem witness_SystemWordsRefused :
    ([0x30200073#32, 0x10500073#32, 0x12000073#32, 0x00004073#32, 0xFFFFC073#32, 0x000000F3#32] : List (BitVec
      32)).all
      (fun w => w.toNat % 128 == 0x73 && (w.toNat / 4096 % 8 == 0 || w.toNat / 4096 % 8 == 4) &&
        w != 0x00000073#32 && w != 0x00100073#32) = true := by
  decide

/-- An instruction of four bytes and one of two. -/
theorem witness_StepRunsDecoded :
    let s := code (bench .rv64 []) 0x1000#64 4 0x00128313
    let t := code (bench .rv32 []) 0x1FFE#64 2 0x0505
    let u := { t with pc := 0x1FFE#64 }
    (s.run = .running ∧ s.stopped = false ∧ s.instret.toNat < s.budget.toNat ∧
      s.readPc.toNat % instrAlign s.cfg = 0 ∧
      decodeBytes s.cfg ((List.range 4).map fun k => s.mem.byte ((s.readPc.toNat + k) % s.size)) =
        .ok (.addi 6#5 5#5 1#12) ∧ s.Accepts .fetch s.readPc.toNat 4) ∧
    (u.run = .running ∧ u.stopped = false ∧ u.instret.toNat < u.budget.toNat ∧
      u.readPc.toNat % instrAlign u.cfg = 0 ∧
      decodeBytes u.cfg ((List.range 2).map fun k => u.mem.byte ((u.readPc.toNat + k) % u.size)) =
        .ok (.cAddi 10#5 1#6) ∧ u.Accepts .fetch u.readPc.toNat 2) := by
  unfold State.Accepts
  decide

theorem witness_BoundaryResults :
    let s := bench .rv32 []
    (s.requestStop.run = .running ∧ s.requestStop.stopped = true) ∧
      ((s.simulate 0).run = .running ∧ (s.simulate 0).stopped = false ∧
        (s.simulate 0).budget.toNat ≤ (s.simulate 0).instret.toNat) ∧
      State.reset.run = .idle ∧ (s.trap .readFault 0#64).run = .returned (.trap .readFault 0#64) := by
  decide

/-- A halfword at the end of the code page, a word, a refused first and a refused second halfword. -/
theorem witness_FetchReadsTheInstruction :
    let h := { code (bench .rv32 []) 0x1FFE#64 2 0x0505 with pc := 0x1FFE#64 }
    let w := code (bench .rv32 []) 0x1000#64 4 0x00128313
    let p := { bench .rv32 [] with pc := 0x3000#64 }
    let q := { code (bench .rv32 []) 0x1FFE#64 2 0x0013 with pc := 0x1FFE#64 }
    (h.Accepts .fetch h.readPc.toNat 2 ∧ h.bytesAt h.readPc.toNat 2 % 4 ≠ 3) ∧
    (w.Accepts .fetch w.readPc.toNat 4 ∧ w.bytesAt w.readPc.toNat 2 % 4 = 3) ∧
    p.Refuses .fetch p.readPc.toNat 2 .executionFault ∧
    (q.Accepts .fetch q.readPc.toNat 2 ∧ q.bytesAt q.readPc.toNat 2 % 4 = 3 ∧
      q.Refuses .fetch ((q.readPc.toNat + 2) % q.size) 2 .executionFault) := by
  unfold State.Refuses State.Accepts
  decide

theorem witness_StepChecksInOrder :
    let s := code (bench .rv64 []) 0x1000#64 4 0
    let o := { s with pc := 0x1001#64 }
    let f := { s with pc := 0x5000#64 }
    let c := { code (bench .rv64 []) 0x1000#64 2 0x0505 with cfg := { Config.gc .rv64 512 with extC := false } }
    (s.run = .running ∧ s.stopped = false ∧ s.instret.toNat < s.budget.toNat) ∧
      o.readPc.toNat % instrAlign o.cfg ≠ 0 ∧
      (f.readPc.toNat % instrAlign f.cfg = 0 ∧ f.fetch = .fault .executionFault 0x5000#64) ∧
      (s.readPc.toNat % instrAlign s.cfg = 0 ∧ s.fetch = .ok (.half 0#16) ∧ decode s.cfg (.half 0#16) = .illegal) ∧
      (c.readPc.toNat % instrAlign c.cfg = 0 ∧ c.fetch = .ok (.half 0x0505#16) ∧
        decode c.cfg (.half 0x0505#16) = .unimplemented) := by
  decide

/-- A load from an unmapped page, and SC.W with its reservation on a page it may not write. -/
theorem witness_TrapsArePrecise :
    (∃ t, (Instr.lw 7#5 5#5 0#12).callsHost = false ∧ (hole .rv32).run = .running ∧
      exec (.lw 7#5 5#5 0#12) (hole .rv32) = .next t ∧ t.run = .returned (.trap .outOfBoundsFault 0x5000#64)) ∧
    (∃ t, (Instr.scW 7#5 0#5 6#5 false false).conditional = true ∧
      exec (.scW 7#5 0#5 6#5 false false) { data .rv32 with reservation := some { addr := 0#64, size := .word } } =
        .next t ∧ t.run = .returned (.trap .outOfBoundsFault 0#64)) :=
  ⟨⟨(hole .rv32).trap .outOfBoundsFault 0x5000#64, by decide, by decide, rfl, rfl⟩,
    ⟨{ data .rv32 with reservation := none }.trap .outOfBoundsFault 0#64, by decide, rfl, rfl⟩⟩

/-- One instruction that completes and one that traps. -/
theorem witness_RetireOrTrap :
    (∃ t, (Instr.add 7#5 5#5 6#5).callsHost = false ∧ (Instr.add 7#5 5#5 6#5).transfers = false ∧
      (data .rv64).run = .running ∧ exec (.add 7#5 5#5 6#5) (data .rv64) = .next t) ∧
    (∃ t, (Instr.lw 7#5 5#5 0#12).callsHost = false ∧ (hole .rv64).run = .running ∧
      exec (.lw 7#5 5#5 0#12) (hole .rv64) = .next t) :=
  ⟨⟨_, by decide, by decide, by decide, rfl⟩, ⟨_, by decide, by decide, rfl⟩⟩

/-- The invariant holds inside a run, with a reservation held, and the next step completes. -/
theorem witness_InvariantKept :
    ∃ t, State.Inv { code (data .rv32) 0x1000#64 4 0x0062A023 with
        reservation := some { addr := 0x2000#64, size := .word }, syscalls := [511] } ∧
      step { code (data .rv32) 0x1000#64 4 0x0062A023 with
        reservation := some { addr := 0x2000#64, size := .word }, syscalls := [511] } = .next t := by
  refine ⟨_, ⟨by decide, by decide, by decide, by decide, by decide, ?_, by decide, fun _ => by decide⟩, rfl⟩
  intro r hr
  cases hr
  decide

/-- A step inside a run, and a state that has returned. -/
theorem witness_HostReach :
    (∃ t, step (code (data .rv32) 0x1000#64 4 0x00128313) = .next t) ∧
      (∃ t, step ((data .rv32).trap .readFault 1#64) = .next t) ∧
      ((data .rv32).trap .readFault 1#64).run = .returned (.trap .readFault 1#64) :=
  ⟨⟨_, rfl⟩, ⟨_, rfl⟩, rfl⟩

theorem witness_FlagsOnlyAccrue :
    (Instr.add 7#5 5#5 6#5).callsHost = false ∧ (Instr.add 7#5 5#5 6#5).accessesCsr = false ∧
      ∃ t, exec (.add 7#5 5#5 6#5) (data .rv64) = .next t :=
  ⟨by decide, by decide, _, rfl⟩

theorem witness_ReservationOwners :
    (Instr.sw 5#5 6#5 0#12).reserves = false ∧
      ∃ t, exec (.sw 5#5 6#5 0#12) { data .rv64 with reservation := some { addr := 0x2000#64, size := .word } } =
      .next t :=
  ⟨by decide, _, rfl⟩

/-- A jump to an address that is a multiple of 2 and not of 4, with EXT_C. -/
theorem witness_PcStaysAligned :
    let s := code (bench .rv32 []) 0x1000#64 4 0x002000EF
    s.readPc.toNat % instrAlign s.cfg = 0 ∧ s.front = .execute (.jal 1#5 1#20) ∧
      (Instr.jal 1#5 1#20).callsHost = false ∧ ∃ t, step s = .next t :=
  ⟨by decide, by decide, by decide, _, rfl⟩

theorem witness_ShiftResults : (bench .rv32 []).cfg.xlen.shamtOk 31#6 = true ∧ (bench .rv64 []).cfg.xlen.shamtOk 63#6
      = true := by
  decide

/-- The premise of the statements about the forms of RV64, and of those about the forms of RV32. -/
theorem witness_xlen : (bench .rv64 []).cfg.xlen = .rv64 ∧ (bench .rv32 []).cfg.xlen = .rv32 := by
  decide

/-- Targets a jump accepts and refuses, and a branch taken and not taken. -/
theorem witness_TransferResults :
    let s := { bench .rv32 [(5#5, 1#64)] with cfg := { Config.gc .rv32 512 with extC := false } }
    s.Aligned (s.fromPc (8 * 2)) ∧ ¬s.Aligned (s.fromPc (3 * 2)) ∧ s.Aligned (s.fromReg 5#5 3) ∧
      ¬s.Aligned (s.fromReg 5#5 2) ∧ s.U 5#5 ≠ s.U 6#5 ∧ s.U 0#5 = s.U 6#5 := by
  unfold State.Aligned
  decide

/-- Loads: accepted up to the last byte of a page, refused at an unmapped page, refused at the cap. -/
theorem witness_LoadResults :
    let s := bench .rv64 [(5#5, 0x3FF8#64)]
    let t := bench .rv32 [(5#5, 0x3FFD#64)]
    let u := bench .rv32 [(5#5, 0x100000#64)]
    s.Accepts .read (s.address 5#5 0#12).toNat 8 ∧
      t.Refuses .read (t.address 5#5 0#12).toNat 4 .outOfBoundsFault ∧
      u.Refuses .read (u.address 5#5 0#12).toNat 1 .outOfBoundsFault := by
  unfold State.Refuses State.Accepts
  decide

/-- A split store on the reference memory, which checks every byte first: nothing is written and nothing is drawn
(20_memory.md R195). A memory that need not check first draws its outcome (R162). -/
theorem test_checkFirst :
    (match exec (.sw 5#5 6#5 0#12) (split .rv64) with
      | .next t => t == (split .rv64).trap .writeFault 0x2FFE#64
      | _ => false) = true ∧
    (match exec (.sw 5#5 6#5 0#12) { split .rv64 with mem := { (split .rv64).mem with checkFirst := false } } with
      | .next t => t.draws == (split .rv64).draws + 1
      | _ => false) = true := by
  decide

/-- Stores: accepted, refused on the first page, refused on the second page alone, by a memory that checks every byte
first and by one that need not. -/
theorem witness_StoreResults :
    let s := data .rv64
    let r := bench .rv64 [(5#5, 0x3000#64)]
    let t := split .rv64
    s.Accepts .write (s.address 5#5 0#12).toNat 8 ∧ r.Refuses .write (r.address 5#5 0#12).toNat 1 .writeFault ∧
      t.Refuses .write (t.address 5#5 0#12).toNat 4 .writeFault ∧ t.mem.checkFirst = true ∧
      { t with mem := { t.mem with checkFirst := false } }.Refuses .write (t.address 5#5 0#12).toNat 4 .writeFault :=
      by
  unfold State.Refuses State.Accepts
  decide

/-- SW over the next instruction. -/
theorem witness_FetchSeesTheStore :
    let s := bench .rv32 [(5#5, 0x1004#64), (6#5, 0x00100073#64)]
    s.Accepts .write (s.address 5#5 0#12).toNat 4 ∧ s.Accepts .fetch (s.address 5#5 0#12).toNat 4 ∧
      (s.readPc.toNat + 4) % s.size = (s.address 5#5 0#12).toNat ∧ s.N 6#5 % 4 = 3 := by
  unfold State.Accepts
  decide

/-- The cap, an unmapped page, a mapped page and a page created on first access, at their boundaries. -/
theorem witness_MemoryRefusals :
    let m := (bench .rv32 []).mem
    let a : PageAttr := { readable := true, writable := false, executable := false }
    let l := { m with unmapped := some a }
    m.cap ≤ 0x100000 ∧ (0xFFFFF < m.cap ∧ assocGet m.pages (0xFFFFF / 4096) = none ∧ m.unmapped = none) ∧
      (0x3FFF < m.cap ∧ assocGet m.pages (0x3FFF / 4096) = some a) ∧
      (0x4000 < l.cap ∧ assocGet l.pages (0x4000 / 4096) = none ∧ l.unmapped = some a) := by
  decide

/-- A handler installed for the last number, none for it, and a number beyond the table. -/
theorem witness_HostCallResults :
    let s := { bench .rv32 [(17#5, 511#64)] with syscalls := [511], debugHandler := true }
    let u := { bench .rv32 [(17#5, 512#64)] with syscalls := [511] }
    (s.N 17#5 < s.cfg.nsyscalls ∧ s.N 17#5 ∈ s.syscalls ∧ s.debugHandler = true) ∧
      ¬(u.N 17#5 < u.cfg.nsyscalls ∧ u.N 17#5 ∈ u.syscalls) ∧ u.debugHandler = false := by
  decide

/-- The premise of CsrWrites, at fflags, frm and fcsr. -/
theorem witness_CsrWrites :
    (bench .rv32 []).cfg.extF = true ∧ (bench .rv64 []).cfg.extF = true ∧
      ([1#12, 2#12, 3#12] : List CsrNum).all (fun num => num == 1#12 || num == 2#12 || num == 3#12) = true := by
  decide

theorem witness_CsrWrites_frm :
    (bench .rv64 []).cfg.extF = true ∧ ((2#12 : CsrNum) = 1#12 ∨ (2#12 : CsrNum) = 2#12 ∨ (2#12 : CsrNum) = 3#12) :=
      by
  decide

theorem witness_CsrWrites_fcsr :
    (bench .rv32 []).cfg.extF = true ∧ ((3#12 : CsrNum) = 1#12 ∨ (3#12 : CsrNum) = 2#12 ∨ (3#12 : CsrNum) = 3#12) :=
      by
  decide

/-- Whether an instruction is one of the four forms that read the counter and write nothing. -/
def readsOnly (i : Instr) (num : CsrNum) : Bool :=
  i == .csrrs 7#5 0#5 num || i == .csrrc 7#5 0#5 num || i == .csrrsi 7#5 0#5 num || i == .csrrci 7#5 0#5 num

/-- cycle, time and instret, on both register widths, each by one of the four forms. -/
theorem witness_CounterReads :
    (bench .rv64 []).cfg.xlen = .rv64 ∧ (bench .rv32 []).cfg.xlen = .rv32 ∧
      readsOnly (.csrrs 7#5 0#5 0xC00#12) 0xC00#12 = true ∧ readsOnly (.csrrc 7#5 0#5 0xC01#12) 0xC01#12 = true ∧
      readsOnly (.csrrsi 7#5 0#5 0xC02#12) 0xC02#12 = true := by
  decide

/-- cycleh, timeh and instreth, on RV32. -/
theorem witness_CounterReads_high :
    (bench .rv32 []).cfg.xlen = .rv32 ∧ readsOnly (.csrrci 7#5 0#5 0xC80#12) 0xC80#12 = true ∧
      readsOnly (.csrrs 7#5 0#5 0xC81#12) 0xC81#12 = true ∧ readsOnly (.csrrc 7#5 0#5 0xC82#12) 0xC82#12 = true := by
  decide

/-- Each counter is read by a step that completes, on RV64 and, for the high halves, on RV32; a read of time or timeh
takes one draw and the others none (10_state.md R74 to R77). -/
theorem test_counters_complete :
    ([0xC00#12, 0xC01#12, 0xC02#12] : List CsrNum).all (fun num =>
      match exec (.csrrs 7#5 0#5 num) (bench .rv64 []) with
      | .next t => t.draws == (if num == 0xC01#12 then 1 else 0) && t.instret == 1#64
      | _ => false) = true ∧
    ([0xC80#12, 0xC81#12, 0xC82#12] : List CsrNum).all (fun num =>
      match exec (.csrrci 7#5 0#5 num) (bench .rv32 []) with
      | .next t => t.draws == (if num == 0xC81#12 then 1 else 0) && t.instret == 1#64
      | _ => false) = true := by
  decide

/-- A number beside the last counter, a high half on RV64, fflags without EXT_F, and a counter on RV32. -/
theorem witness_CsrTraps :
    let s := { bench .rv64 [] with cfg := { Config.gc .rv64 512 with extF := false, extD := false } }
    let exist := fun (s : State) (num : CsrNum) =>
      (num = 1#12 ∨ num = 2#12 ∨ num = 3#12) ∧ s.cfg.extF = true ∨
        (num = 0xC00#12 ∨ num = 0xC01#12 ∨ num = 0xC02#12) ∨
        (num = 0xC80#12 ∨ num = 0xC81#12 ∨ num = 0xC82#12) ∧ s.cfg.xlen = .rv32
    ¬exist s 0xC03#12 ∧ ¬exist s 0xC80#12 ∧ ¬exist s 1#12 ∧ exist (bench .rv32 []) 0xC80#12 ∧
      (5#5 : Reg) ≠ 0#5 := by
  decide

theorem witness_LoadReservedResults :
    let s := data .rv64
    (s.N 5#5 % 4 = 0 ∧ s.Accepts .read (s.N 5#5) 4) ∧ s.cfg.xlen = .rv64 ∧ s.N 5#5 % 8 = 0 ∧
      s.Accepts .read (s.N 5#5) 8 := by
  unfold State.Accepts
  decide

/-- The reservation is the access, is another size, is none, and is the access on a page it may not write. -/
theorem witness_StoreConditionalResults :
    let s := { data .rv64 with reservation := some { addr := 0x2000#64, size := .word } }
    let r := { bench .rv64 [(5#5, 0x3000#64)] with reservation := some { addr := 0x3000#64, size := .double } }
    (s.N 5#5 % ResSize.word.bytes = 0 ∧ s.reservation = some { addr := s.readX 5#5, size := .word } ∧
      s.Accepts .write (s.N 5#5) ResSize.word.bytes) ∧
    (s.cfg.xlen = .rv64 ∧ s.N 5#5 % ResSize.double.bytes = 0 ∧
      s.reservation ≠ some { addr := s.readX 5#5, size := .double }) ∧
    (r.N 5#5 % ResSize.double.bytes = 0 ∧ r.reservation = some { addr := r.readX 5#5, size := .double } ∧
      r.Refuses .write (r.N 5#5) ResSize.double.bytes .writeFault) := by
  unfold State.Refuses State.Accepts
  decide

theorem witness_WordAtomicResults :
    let s := bench .rv32 [(5#5, 0x2FFC#64)]
    s.N 5#5 % 4 = 0 ∧ s.Accepts .read (s.N 5#5) 4 ∧ s.Accepts .write (s.N 5#5) 4 := by
  unfold State.Accepts
  decide

theorem witness_DoubleAtomicResults :
    let s := bench .rv64 [(5#5, 0x2FF8#64)]
    s.cfg.xlen = .rv64 ∧ s.N 5#5 % 8 = 0 ∧ s.Accepts .read (s.N 5#5) 8 ∧ s.Accepts .write (s.N 5#5) 8 := by
  unfold State.Accepts
  decide

/-- Misaligned for LR, AMO and SC; a read refused; a write refused. -/
theorem witness_AtomicTraps :
    let m := bench .rv64 [(5#5, 0x2004#64)]
    let r := hole .rv64
    let w := bench .rv64 [(5#5, 0x3000#64)]
    ((Instr.lrD 7#5 5#5 false false).atomicRead = some (.double, 5#5) ∧
      (Instr.scD 7#5 5#5 6#5 false false).scAccess = some (.double, 5#5) ∧ m.N 5#5 % ResSize.double.bytes ≠ 0) ∧
    ((Instr.amoaddW 7#5 5#5 6#5 false false).atomicRead = some (.word, 5#5) ∧ r.N 5#5 % ResSize.word.bytes = 0 ∧
      r.Refuses .read (r.N 5#5) ResSize.word.bytes .outOfBoundsFault) ∧
    ((Instr.amoaddW 7#5 5#5 6#5 false false).amoAccess = some (.word, 5#5) ∧ w.N 5#5 % ResSize.word.bytes = 0 ∧
      w.Accepts .read (w.N 5#5) ResSize.word.bytes ∧ w.Refuses .write (w.N 5#5) ResSize.word.bytes .writeFault) := by
  unfold State.Refuses State.Accepts
  decide

/-- FSD accepted and refused; the loads' witness is that of LoadResults. -/
theorem witness_FloatLoadStoreResults :
    (data .rv32).Accepts .write ((data .rv32).address 5#5 0#12).toNat 8 ∧
      (split .rv32).Refuses .write ((split .rv32).address 5#5 0#12).toNat 8 .writeFault ∧
      (data .rv32).Accepts .read ((data .rv32).address 5#5 0#12).toNat 8 ∧
      (hole .rv32).Refuses .read ((hole .rv32).address 5#5 0#12).toNat 4 .outOfBoundsFault := by
  unfold State.Refuses State.Accepts
  decide

/-- The least boxed value and the greatest value that is not, as values and in a register. -/
theorem witness_BoxedSingles :
    let s := floats (bench .rv32 []) [(1#5, 0xFFFFFFFF00000000#64), (2#5, 0xFFFFFFFEFFFFFFFF#64)]
    0xFFFFFFFF00000000 ≤ (0xFFFFFFFF00000000#64).toNat ∧ (0xFFFFFFFEFFFFFFFF#64).toNat < 0xFFFFFFFF00000000 ∧
      0xFFFFFFFF00000000 ≤ (s.readF 1#5).toNat ∧ (s.readF 2#5).toNat < 0xFFFFFFFF00000000 := by
  decide

/-- Both formats, and a pattern of each class: quiet and signaling NaN, infinity, zero or subnormal, the least and the
greatest exponent of a normal number. -/
theorem witness_BoxedSingles_fields :
    (Fmt.single = .single ∧ (23 : Nat) = 23 ∧ (8 : Nat) = 8) ∧ (Fmt.double = .double ∧ (52 : Nat) = 52 ∧ (11 : Nat) =
      11) ∧
      (0x7FC00000 / 2 ^ 23 % 2 ^ 8 = 2 ^ 8 - 1 ∧ 0x7FC00000 % 2 ^ 23 ≠ 0) ∧
      (0xFF800000 / 2 ^ 23 % 2 ^ 8 = 2 ^ 8 - 1 ∧ 0xFF800000 % 2 ^ 23 = 0) ∧
      0x80000001 / 2 ^ 23 % 2 ^ 8 = 0 ∧
      (0x00800000 / 2 ^ 23 % 2 ^ 8 ≠ 0 ∧ 0x00800000 / 2 ^ 23 % 2 ^ 8 ≠ 2 ^ 8 - 1) ∧
      (0x7FEFFFFFFFFFFFFF / 2 ^ 52 % 2 ^ 11 ≠ 0 ∧ 0x7FEFFFFFFFFFFFFF / 2 ^ 52 % 2 ^ 11 ≠ 2 ^ 11 - 1) ∧
      (0x7FF0000000000001 / 2 ^ 52 % 2 ^ 11 = 2 ^ 11 - 1 ∧ 0x7FF0000000000001 % 2 ^ 52 ≠ 0) := by
  decide

/-- Each mode, static or dynamic; a reserved static mode, and a dynamic mode with frm reserved. -/
theorem witness_ReservedRoundingTraps :
    let s := { bench .rv32 [] with fcsr := 0xA0#8 }
    let u := { bench .rv32 [] with fcsr := 0x9F#8 }
    let effective := fun (s : State) (rm : BitVec 3) => if rm = 7#3 then s.fcsr.toNat / 32 else rm.toNat
    effective s 0#3 = 0 ∧ effective s 1#3 = 1 ∧ effective s 2#3 = 2 ∧ effective s 3#3 = 3 ∧ effective u 7#3 = 4 ∧
    (Instr.faddS 3#5 1#5 2#5 5#3).roundingField = some 5#3 ∧
      5 ≤ (if (5#3 : BitVec 3) = 7#3 then s.fcsr.toNat / 32 else (5#3 : BitVec 3).toNat) ∧
      (Instr.fcvtDS 3#5 1#5 7#3).roundingField = some 7#3 ∧
      5 ≤ (if (7#3 : BitVec 3) = 7#3 then s.fcsr.toNat / 32 else (7#3 : BitVec 3).toNat) := by
  decide

/-- For FloatArithmetic, ToIntegerResults and FromIntegerResults: a static mode, and the dynamic mode. -/
theorem witness_roundingMode :
    (bench .rv32 []).roundingMode 4#3 = some .rmm ∧
      { bench .rv32 [] with fcsr := 0x40#8 }.roundingMode 7#3 = some .rdn := by
  decide

/-- A zero, an infinity and a NaN. -/
theorem witness_FloatArithmetic_negation :
    (FVal.fin false 0 0).Real 0 ∧ FVal.inf true = .inf true ∧ (FVal.nan true).isNaN = true := by
  norm_num [FVal.Real, FVal.isNaN]

/-- Numbers whose sum, difference, product, quotient and fused sum are not zero: 3, −1/2 and 0. -/
theorem witness_OperationsRoundOnce :
    (FVal.fin false 3 0).Real 3 ∧ (FVal.fin true 1 (-1)).Real (-1 / 2) ∧ (FVal.fin true 0 5).Real 0 ∧
      (3 : ℝ) + -1 / 2 ≠ 0 ∧ (3 : ℝ) - -1 / 2 ≠ 0 ∧ (3 : ℝ) * (-1 / 2) ≠ 0 ∧ (3 : ℝ) ≠ 0 ∧ (-1 / 2 : ℝ) ≠ 0 ∧
      (3 : ℝ) * (-1 / 2) + 0 ≠ 0 ∧ (-7 : ℤ) ≠ 0 := by
  norm_num [FVal.Real]

theorem witness_SquareRootRoundsOnce : (FVal.fin false 3 0).Real 3 ∧ (0 : ℝ) < 3 := by
  norm_num [FVal.Real]

/-- A NaN, a number, two numbers of opposite values, and a product that the addend cancels. -/
theorem witness_SpecialSums :
    (FVal.nan true).isNaN = true ∧ (FVal.fin false 3 0).Real 3 ∧ (FVal.fin true 3 0).Real (-3) ∧
      (FVal.inf false).infTimesZero (.nan false) = false ∧ (3 : Nat) ≠ 0 ∧
      (FVal.fin true 2 0).Real (-2) ∧ (FVal.fin false 3 1).Real (-(3 * -2)) ∧
      (FVal.fin false 1 1).Real 2 ∧ (FVal.fin false 2 0).Real 2 ∧ (FVal.fin true 0 0).Real 0 ∧ (FVal.fin false 0
      0).Real 0 := by
  refine ⟨rfl, ?_, ?_, rfl, by decide, ?_, ?_, ?_, ?_, ?_, ?_⟩ <;> norm_num [FVal.Real]

/-- 47_f.md R827: 1.0 − 1.0 is +0 under RNE and −0 under RDN. R808: −0 − +0 is −0. R809: a nonzero number times an
infinity meets an opposite infinity, and an infinity times an infinity meets its own. -/
theorem test_specialSums :
    Fmt.single.sub .rne (.fin false 1 0) (.fin false 1 0) = { bits := 0, flags := 0#5 } ∧
      Fmt.single.sub .rdn (.fin false 1 0) (.fin false 1 0) = { bits := 0x80000000, flags := 0#5 } ∧
      Fmt.single.sub .rne (.fin true 0 0) (.fin false 0 0) = { bits := 0x80000000, flags := 0#5 } ∧
      Fmt.single.fma .rne (.fin true 3 0) (.inf false) (.inf false) = { bits := 0x7FC00000, flags := flagNV } ∧
      Fmt.double.fma .rne (.inf true) (.inf true) (.inf false) = { bits := 0x7FF0000000000000, flags := 0#5 } := by
  decide

theorem witness_SpecialProducts :
    (FVal.nan false).isNaN = true ∧ ((0 : Nat) = 0 ∨ (1 : Nat) = 0) ∧ (1 : Nat) ≠ 0 := by
  decide

/-- One NaN, two NaNs, two numbers in order, and two zeros of opposite signs. -/
theorem witness_MinMaxResults :
    let s := floats (bench .rv32 []) [(1#5, 0xFFFFFFFF80000000#64), (2#5, 0xFFFFFFFF00000000#64),
      (3#5, 0xFFFFFFFF3F800000#64)]
    ((Fmt.single.value (s.readS 0#5).toNat).isNaN = true ∧ (Fmt.single.value (s.readS 1#5).toNat).isNaN = false) ∧
      (Fmt.single.value (s.readS 1#5).toNat).Extended 0 ∧ (s.readS 1#5).toNat.testBit Fmt.single.signBit = true ∧
      (Fmt.single.value (s.readS 2#5).toNat).Extended 0 ∧ (s.readS 2#5).toNat.testBit Fmt.single.signBit = false ∧
      (Fmt.double.value 0x7FF0000000000000).Extended ⊤ ∧ (0 : EReal) < ⊤ := by
  have h1 : Fmt.single.value (((floats (bench .rv32 []) [(1#5, 0xFFFFFFFF80000000#64), (2#5, 0xFFFFFFFF00000000#64),
      (3#5, 0xFFFFFFFF3F800000#64)]).readS 1#5).toNat) = .fin true 0 (-149) := by decide
  have h2 : Fmt.single.value (((floats (bench .rv32 []) [(1#5, 0xFFFFFFFF80000000#64), (2#5, 0xFFFFFFFF00000000#64),
      (3#5, 0xFFFFFFFF3F800000#64)]).readS 2#5).toNat) = .fin false 0 (-149) := by decide
  have h3 : Fmt.double.value 0x7FF0000000000000 = .inf false := by decide
  refine ⟨by decide, ?_, by decide, ?_, by decide, ?_, by decide⟩
  · rw [h1]; simp [FVal.Extended]
  · rw [h2]; simp [FVal.Extended]
  · rw [h3]; simp [FVal.Extended]

/-- A NaN operand; two numbers, in order and equal. -/
theorem witness_CompareResults :
    let s := floats (bench .rv32 []) [(1#5, 0xFFFFFFFF80000000#64), (2#5, 0x7FF0000000000000#64)]
    (s.valS 0#5).isNaN = true ∧ (s.valS 1#5).Extended 0 ∧ (s.valD 2#5).Extended ⊤ ∧ (s.valD 0#5).Extended 0 := by
  have h1 : (floats (bench .rv32 []) [(1#5, 0xFFFFFFFF80000000#64), (2#5, 0x7FF0000000000000#64)]).valS 1#5 =
      .fin true 0 (-149) := by decide
  have h2 : (floats (bench .rv32 []) [(1#5, 0xFFFFFFFF80000000#64), (2#5, 0x7FF0000000000000#64)]).valD 2#5 =
      .inf false := by decide
  have h3 : (floats (bench .rv32 []) [(1#5, 0xFFFFFFFF80000000#64), (2#5, 0x7FF0000000000000#64)]).valD 0#5 =
      .fin false 0 (-1074) := by decide
  refine ⟨by decide, ?_, ?_, ?_⟩
  · rw [h1]; simp [FVal.Extended]
  · rw [h2]; simp [FVal.Extended]
  · rw [h3]; simp [FVal.Extended]

theorem witness_ClassResults :
    (Instr.fclassS 5#5 1#5 = .fclassS 5#5 1#5 ∧
      ((bench .rv32 []).readS 1#5).toNat = 0x7FC00000 ∧ ((bench .rv32 []).readF 1#5).toNat = 0) := by
  decide

/-- Operands above, below and inside the range of FCVT.W, exact and inexact, under RTZ. -/
theorem witness_ToIntegerResults :
    (FVal.nan false).isNaN = true ∧
      ((FVal.fin false 1 31).Real (2 ^ 31) ∧ RoundingMode.rtz.Rounds (2 ^ 31) (2 ^ 31) ∧ (2 ^ 31 - 1 : ℤ) < 2 ^ 31) ∧
      ((FVal.fin true 3 30).Real (-3 * 2 ^ 30) ∧ RoundingMode.rdn.Rounds (-3 * 2 ^ 30) (-3 * 2 ^ 30) ∧
        (-3 * 2 ^ 30 : ℤ) < -(2 ^ 31)) ∧
      ((FVal.fin true 1 31).Real (-(2 ^ 31)) ∧ RoundingMode.rup.Rounds (-(2 ^ 31)) (-(2 ^ 31))) ∧
      ((FVal.fin false 5 (-1)).Real (5 / 2) ∧ RoundingMode.rne.Rounds (5 / 2) 2 ∧ (5 / 2 : ℝ) ≠ (2 : ℤ)) := by
  have e1 : ((2 ^ 31 : ℝ)) = ((2 ^ 31 : ℤ) : ℝ) := by norm_num
  have e2 : (-3 * 2 ^ 30 : ℝ) = ((-3 * 2 ^ 30 : ℤ) : ℝ) := by norm_num
  have e3 : (-(2 ^ 31) : ℝ) = ((-(2 ^ 31) : ℤ) : ℝ) := by norm_num
  refine ⟨rfl, ⟨?_, ?_, by norm_num⟩, ⟨?_, ?_, by norm_num⟩, ⟨?_, ?_⟩, ?_, ?_, by norm_num⟩
  · norm_num [FVal.Real]
  · simp only [RoundingMode.Rounds, e1, Int.floor_intCast, Int.ceil_intCast, ite_self]
  · norm_num [FVal.Real]
  · simp only [RoundingMode.Rounds, e2, Int.floor_intCast]
  · norm_num [FVal.Real]
  · simp only [RoundingMode.Rounds, e3, Int.ceil_intCast]
  · norm_num [FVal.Real]
  · norm_num [RoundingMode.Rounds, abs_of_pos]

/-- C.SRLI, C.SRAI and C.SLLI: the greatest amounts. C.ADDIW, C.SUBW and C.ADDW: `witness_xlen`. -/
theorem witness_CompressedAluResults :
    (bench .rv64 []).cfg.xlen.shamtOk 63#6 = true ∧ (bench .rv32 []).cfg.xlen.shamtOk 31#6 = true := by
  decide

/-- A target C.JR and C.JALR refuse without EXT_C, one they accept, and both cases of a branch. -/
theorem witness_CompressedTransferResults :
    let s := { bench .rv32 [(8#5, 6#64)] with cfg := { Config.gc .rv32 512 with extC := false } }
    ¬s.Aligned (s.fromReg 8#5 0) ∧ s.Aligned (s.fromReg 9#5 0) ∧ s.U (prime 0#3) ≠ 0 ∧ s.U (prime 1#3) = 0 ∧
      (bench .rv32 []).Aligned ((bench .rv32 []).fromPc (1 * 2)) := by
  unfold State.Aligned
  decide

/-- The greatest offsets, accepted and refused. -/
theorem witness_CompressedLoadResults :
    let s := bench .rv64 [(2#5, 0x2000#64), (9#5, 0x2000#64)]
    let t := bench .rv32 [(2#5, 0x3F04#64), (9#5, 0x100000#64)]
    s.Accepts .read (s.addressC (prime 1#3) (31 * 8)).toNat 8 ∧ s.Accepts .read (s.addressC 2#5 (63 * 8)).toNat 8 ∧
      t.Refuses .read (t.addressC 2#5 (63 * 4)).toNat 4 .outOfBoundsFault ∧
      t.Refuses .read (t.addressC (prime 1#3) (0 * 4)).toNat 4 .outOfBoundsFault := by
  unfold State.Refuses State.Accepts
  decide

/-- The greatest offsets, accepted, refused on the first page and refused on the second alone. -/
theorem witness_CompressedStoreResults :
    let s := bench .rv64 [(2#5, 0x2000#64), (9#5, 0x2000#64)]
    let t := bench .rv64 [(2#5, 0x2E04#64), (9#5, 0x3000#64)]
    s.Accepts .write (s.addressC (prime 1#3) (31 * 8)).toNat 8 ∧ s.Accepts .write (s.addressC 2#5 (63 * 8)).toNat 8 ∧
      t.Refuses .write (t.addressC 2#5 (63 * 8)).toNat 8 .writeFault ∧
      t.Refuses .write (t.addressC (prime 1#3) (0 * 8)).toNat 8 .writeFault := by
  unfold State.Refuses State.Accepts
  decide

theorem witness_CompressedRefinesExpansion :
    (encode (.cLwsp 10#5 1#6)).len = 2 ∧ (Instr.cLwsp 10#5 1#6).transfers = false ∧
      (Instr.cLwsp 10#5 1#6).callsHost = false ∧ (data .rv32).run = .running := by
  decide

end Sys2Proof.Tests
end

section
/-! What the host interface cannot reach, and what every step keeps of the configuration, the budget and the run
(00_scope.md R14, R16, R19; 60_exceptions.md R1120, R1130). -/

namespace Sys2Proof.Machine

/-! ### The reach of the host interface -/

/-- What no use of the embedding interface changes: the fields that have no API (60_exceptions.md R1120) and those of
the `simulate` in progress. -/
structure State.HostKeeps (s t : State) : Prop where
  cfg : t.cfg = s.cfg
  instret : t.instret = s.instret
  reservation : t.reservation = s.reservation
  budget : t.budget = s.budget
  run : t.run = s.run

theorem State.HostKeeps.refl (s : State) : s.HostKeeps s := ⟨rfl, rfl, rfl, rfl, rfl⟩

theorem State.HostKeeps.trans {s t u : State} (h : s.HostKeeps t) (h' : t.HostKeeps u) : s.HostKeeps u :=
  ⟨h'.cfg.trans h.cfg, h'.instret.trans h.instret, h'.reservation.trans h.reservation, h'.budget.trans h.budget,
    h'.run.trans h.run⟩

theorem State.hostKeeps_writeX (s : State) (r : Reg) (v : Word) : s.HostKeeps (s.writeX r v) :=
  ⟨s.writeX_cfg r v, s.writeX_instret r v, s.writeX_reservation r v, s.writeX_budget r v, s.writeX_run r v⟩

theorem State.hostKeeps_copyToGuest (s : State) (a : Word) (bytes : List Byte) :
    s.HostKeeps (s.copyToGuest a bytes) := by
  unfold State.copyToGuest
  split
  · exact .refl s
  · exact ⟨rfl, rfl, rfl, rfl, rfl⟩

theorem State.hostKeeps_setHandler (s : State) (n : Nat) (installed : Bool) :
    s.HostKeeps (s.setHandler n installed) := by
  unfold State.setHandler
  split
  · exact .refl s
  · exact ⟨rfl, rfl, rfl, rfl, rfl⟩

theorem HostAction.hostKeeps_apply (s : State) (a : HostAction) : s.HostKeeps (a.apply s) := by
  cases a with
  | setX r v => exact s.hostKeeps_writeX r v
  | copyToGuest a bytes => exact s.hostKeeps_copyToGuest a bytes
  | setSyscall n installed => exact s.hostKeeps_setHandler n installed
  | setF _ _ | setFcsr _ | setPc _ | setPageAttr _ _ | freePage _ | stop | setDebug _ =>
    exact ⟨rfl, rfl, rfl, rfl, rfl⟩

theorem State.hostKeeps_hostActs (s : State) (acts : List HostAction) : s.HostKeeps (s.hostActs acts) := by
  induction acts generalizing s with
  | nil => exact .refl s
  | cons a acts ih => exact (a.hostKeeps_apply s).trans (ih (a.apply s))

@[simp] theorem State.hostActs_cfg (s : State) (acts : List HostAction) : (s.hostActs acts).cfg = s.cfg :=
  (s.hostKeeps_hostActs acts).cfg
@[simp] theorem State.hostActs_instret (s : State) (acts : List HostAction) : (s.hostActs acts).instret = s.instret :=
  (s.hostKeeps_hostActs acts).instret
@[simp] theorem State.hostActs_reservation (s : State) (acts : List HostAction) :
    (s.hostActs acts).reservation = s.reservation := (s.hostKeeps_hostActs acts).reservation
@[simp] theorem State.hostActs_budget (s : State) (acts : List HostAction) : (s.hostActs acts).budget = s.budget :=
  (s.hostKeeps_hostActs acts).budget
@[simp] theorem State.hostActs_run (s : State) (acts : List HostAction) : (s.hostActs acts).run = s.run :=
  (s.hostKeeps_hostActs acts).run

/-! ### What a step keeps -/

/-- Every instruction keeps the configuration and the budget, and either keeps the run or ends it in a trap. -/
theorem exec_cfg_budget_run {i : Instr} {s t : State} (h : exec i s = .next t) :
    t.cfg = s.cfg ∧ t.budget = s.budget ∧ (t.run = s.run ∨ ∃ k v, t.run = .returned (.trap k v)) := by
  have hs : Shape i s (.next t) := h ▸ exec_shape i s
  cases hs with
  | trap k v | refused a _ _ k | scRefused _ a _ _ k | hostFatal _ _ k v =>
    exact ⟨by simp, by simp, .inr ⟨k, _, rfl⟩⟩
  | plain | writeX | writeF | flagsF | flagsX | store | amo | jump | reserve | scFail | scStore | csrRead | csrWrite
  | host =>
    exact ⟨by simp, by simp, .inl (by simp)⟩

/-- Outside `simulate` a step changes nothing; inside, it keeps the configuration and the budget, and goes on running or
returns a result. -/
theorem step_keeps_or_returns {s t : State} (h : step s = .next t) :
    (s.run ≠ .running ∧ t = s) ∨
      (s.run = .running ∧ t.cfg = s.cfg ∧ t.budget = s.budget ∧ (t.run = .running ∨ ∃ r, t.run = .returned r)) := by
  unfold step at h
  rcases s.front_cases with ⟨hr, hf⟩ | ⟨hr, r, hf⟩ | ⟨hr, -, -, i, hf⟩ <;> rw [hf] at h
  · cases h
    exact .inl ⟨hr, rfl⟩
  · cases h
    exact .inr ⟨hr, rfl, rfl, .inr ⟨r, rfl⟩⟩
  · obtain ⟨hcfg, hbudget, hrun | ⟨k, v, hrun⟩⟩ := exec_cfg_budget_run h
    · exact .inr ⟨hr, hcfg, hbudget, .inl (hrun.trans hr)⟩
    · exact .inr ⟨hr, hcfg, hbudget, .inr ⟨_, hrun⟩⟩

/-- Settles O15: outside `simulate` a step is the identity and inside it ends running or returned, by the shapes of
`exec`; what the host reaches is an induction on its uses of the interface. -/
theorem hostReach : Obligations.HostReach := by
  unfold Obligations.HostReach
  refine ⟨fun s t h => ?_, fun s acts => ?_⟩
  · rcases step_keeps_or_returns h with ⟨-, rfl⟩ | ⟨hs, hcfg, hbudget, ht⟩
    · exact ⟨rfl, rfl, fun _ hr => hr, Iff.rfl⟩
    · refine ⟨hcfg, hbudget, fun r hr => ?_, ?_⟩
      · simp [hs] at hr
      · rcases ht with ht | ⟨r, ht⟩ <;> simp [hs, ht]
  · obtain ⟨hcfg, hinstret, hreservation, hbudget, hrun⟩ := s.hostKeeps_hostActs acts
    exact ⟨hinstret, hreservation, hcfg, hbudget, hrun, State.readX_zero _⟩

end Sys2Proof.Machine
end

section
/-! The invariant of the machine: every named update of the state keeps it, so every step does, and it holds at reset
(10_state.md R51, R52, R60, R87, R90, R95; 20_memory.md R157; 40_cycle.md R360). -/

namespace Sys2Proof.Machine

variable {s : State}

/-! ### The updates that keep the invariant whatever the state -/

theorem State.Inv.writeX (h : s.Inv) (r : Reg) (v : Word) : (s.writeX r v).Inv := by
  unfold State.writeX
  split
  · exact h
  · next hr =>
    have h0 : r.toNat ≠ 0 := fun hz => hr (BitVec.eq_of_toNat_eq hz)
    refine { h with registers := fun k hk => ?_, zero := ?_ }
    · show (s.x.set r.toNat (s.cfg.xlen.narrow v))[k].toNat < s.size
      rw [Vector.getElem_set]
      split
      · exact s.cfg.xlen.narrow_lt v
      · exact h.registers k hk
    · exact (Vector.getElem_set_ne r.isLt (by decide) h0).trans h.zero

theorem State.Inv.writeF (h : s.Inv) (r : FReg) (v : BitVec 64) : (s.writeF r v).Inv := { h with }

theorem State.Inv.setFlags (h : s.Inv) (fl : FFlags) : (s.setFlags fl).Inv := { h with }

theorem State.Inv.trap (h : s.Inv) (kind : TrapKind) (v : Word) : (s.trap kind v).Inv := { h with budget := nofun }

theorem State.Inv.drawn (h : s.Inv) (n : Nat) : State.Inv { s with draws := n } := { h with }

theorem State.Inv.csrDrawn (h : s.Inv) (c : Csr) : (s.csrDrawn c).Inv := by
  unfold State.csrDrawn
  split
  · exact h.drawn _
  · exact h

theorem State.Inv.csrWrite (h : s.Inv) (c : Csr) (v : Word) : (s.csrWrite c v).Inv := by
  cases c with
  | fflags | frm | fcsr => exact { h with }
  | cycle | time | instret | cycleh | timeh | instreth => exact h

/-- A reservation is an aligned address of XLEN bits, or none. -/
theorem State.Inv.reserve (h : s.Inv) {o : Option Reservation}
    (ho : ∀ r, o = some r → r.addr.toNat < s.size ∧ r.addr.toNat % r.size.bytes = 0) :
    State.Inv { s with reservation := o } := { h with reservation := ho }

theorem State.Inv.unreserve (h : s.Inv) : State.Inv { s with reservation := none } := h.reserve nofun

/-! ### Memory -/

/-- Byte writes at addresses below 2^XLEN. -/
theorem State.Inv.writeAll (h : s.Inv) {ws : List Host.Cell} (hws : ∀ w ∈ ws, w.1 < s.size) :
    State.Inv { s with mem := s.mem.writeAll ws } := by
  refine { h with memory := Memory.wf_writeAll h.memory ws, addresses := fun c hc => ?_ }
  rcases Memory.cells_writeAll hc with ⟨w, hw, he⟩ | hc
  · exact he ▸ hws w hw
  · exact h.addresses c hc

theorem span_lt {xl : Xlen} {a : Word} {n b : Nat} (hb : b ∈ span xl a n) : b < 2 ^ xl.bits := by
  obtain ⟨i, -, rfl⟩ := mem_span.mp hb
  exact byteAddr_lt xl a i

theorem storeCells_lt {xl : Xlen} {a v : Word} {n : Nat} {w : Host.Cell} (hw : w ∈ storeCells xl a n v) :
    w.1 < 2 ^ xl.bits :=
  span_lt (storeCells_map_fst xl a n v ▸ List.mem_map_of_mem hw)

theorem State.Inv.storeValue (h : s.Inv) (a : Word) (n : Nat) (v : Word) : (s.storeValue a n v).Inv :=
  h.writeAll fun _ hw => storeCells_lt hw

theorem State.Inv.refusedStore (h : s.Inv) (a : Word) (n : Nat) (v : Word) : (s.refusedStore a n v).Inv := by
  unfold State.refusedStore
  split
  · split
    · exact (h.writeAll fun _ hw => storeCells_lt (List.mem_of_mem_filter hw)).drawn _
    · exact h.drawn _
  · exact h

theorem State.Inv.copyToGuest (h : s.Inv) (a : Word) (bytes : List Byte) : (s.copyToGuest a bytes).Inv := by
  unfold State.copyToGuest
  split
  · exact h
  · exact h.writeAll fun w hw => span_lt (List.of_mem_zip hw).1

/-- The page operations only drop bytes. -/
theorem State.Inv.withMem (h : s.Inv) {m : Memory} (hm : m.wf) (hc : m.cells ⊆ s.mem.cells) :
    State.Inv { s with mem := m } := { h with memory := hm, addresses := fun c hcm => h.addresses c (hc hcm) }

theorem Memory.cells_dropPage_subset (m : Memory) (p : Nat) : (m.dropPage p).cells ⊆ m.cells :=
  List.filter_subset_self _

theorem Memory.cells_setAttr_subset (m : Memory) (p : Nat) (a : PageAttr) : (m.setAttr p a).cells ⊆ m.cells := by
  unfold Memory.setAttr
  split
  · exact m.cells_dropPage_subset p
  · exact List.Subset.refl _

/-! ### The host interface -/

theorem State.Inv.setHandler (h : s.Inv) (n : Nat) (installed : Bool) : (s.setHandler n installed).Inv := by
  unfold State.setHandler
  split
  · exact h
  · next hn =>
    refine { h with handlers := fun m hm => ?_ }
    have hm' : m = n ∨ m ∈ s.syscalls := by
      cases installed <;> grind
    rcases hm' with rfl | hm'
    · exact Nat.lt_of_not_le hn
    · exact h.handlers m hm'

theorem HostAction.inv_apply (h : s.Inv) (a : HostAction) : (a.apply s).Inv := by
  cases a with
  | setX r v => exact h.writeX r v
  | setPc v => exact { h with pc := s.cfg.xlen.narrow_lt v }
  | copyToGuest a bytes => exact h.copyToGuest a bytes
  | setPageAttr p attr => exact h.withMem (Memory.wf_setAttr h.memory p attr) (s.mem.cells_setAttr_subset p attr)
  | freePage p => exact h.withMem (Memory.wf_freePage h.memory p) (s.mem.cells_dropPage_subset p)
  | setSyscall n installed => exact h.setHandler n installed
  | setF _ _ | setFcsr _ | stop | setDebug _ => exact { h with }

theorem State.Inv.hostActs (h : s.Inv) (acts : List HostAction) : (s.hostActs acts).Inv := by
  induction acts generalizing s with
  | nil => exact h
  | cons a acts ih => exact ih (a.inv_apply h)

/-! ### Completion -/

theorem instret_succ_le_budget (hb : s.instret.toNat < s.budget.toNat) : (s.instret + 1).toNat ≤ s.budget.toNat := by
  bv_omega

/-- A completion inside the budget. -/
theorem State.Inv.retire (h : s.Inv) (hb : s.instret.toNat < s.budget.toNat) (len : Nat) : (s.retire len).Inv :=
  { h with pc := s.cfg.xlen.narrow_lt _, budget := fun _ => instret_succ_le_budget hb }

theorem State.Inv.jump (h : s.Inv) (hb : s.instret.toNat < s.budget.toNat) (target : Word) : (s.jump target).Inv :=
  { h with pc := s.cfg.xlen.narrow_lt target, budget := fun _ => instret_succ_le_budget hb }

/-! ### Instructions and steps -/

/-- Inside the budget every instruction keeps the invariant: each shape is a chain of updates that keep it. -/
theorem exec_inv {i : Instr} {t : State} (h : s.Inv) (hb : s.instret.toNat < s.budget.toNat)
    (he : exec i s = .next t) : t.Inv := by
  have hs : Shape i s (.next t) := he ▸ exec_shape i s
  cases hs with
  | trap kind v => exact h.trap kind v
  | refused a n v kind => exact (h.refusedStore a n v).trap kind a
  | plain => exact h.retire hb _
  | writeX _ rd v => exact (h.writeX rd v).retire (by simpa using hb) _
  | writeF _ rd v => exact (h.writeF rd v).retire hb _
  | flagsF _ rd v fl => exact ((h.writeF rd v).setFlags fl).retire hb _
  | flagsX _ rd v fl => exact ((h.writeX rd v).setFlags fl).retire (by simpa using hb) _
  | store _ a n v => exact (h.storeValue a n v).retire hb _
  | amo _ a n v rd w => exact ((h.storeValue a n v).writeX rd w).retire (by simpa using hb) _
  | jump _ _ rd v target => exact (h.writeX rd v).jump (by simpa using hb) target
  | reserve _ _ r ha hal rd v =>
    have hr : State.Inv { s with reservation := some r } := h.reserve fun _ he => Option.some.inj he ▸ ⟨ha, hal⟩
    exact (hr.writeX rd v).retire (by simpa using hb) _
  | scFail _ _ rd v => exact (h.unreserve.writeX rd v).retire (by simpa using hb) _
  | scStore _ _ a n v rd w => exact ((h.unreserve.storeValue a n v).writeX rd w).retire (by simpa using hb) _
  | scRefused _ a n v kind => exact (h.unreserve.refusedStore a n v).trap kind a
  | csrRead _ _ c rd v => exact ((h.csrDrawn c).writeX rd v).retire (by simpa using hb) _
  | csrWrite _ _ c w rd v => exact ((h.csrWrite c w).writeX rd v).retire (by simpa using hb) _
  | host _ acts => exact ((h.drawn _).hostActs acts).retire (by simpa using hb) _
  | hostFatal _ acts kind v => exact ((h.drawn _).hostActs acts).trap kind v

theorem step_inv {t : State} (h : s.Inv) (he : step s = .next t) : t.Inv := by
  unfold step at he
  rcases s.front_cases with ⟨-, hf⟩ | ⟨-, r, hf⟩ | ⟨-, -, hb, i, hf⟩ <;> rw [hf] at he
  · cases he
    exact h
  · cases he
    exact { h with budget := nofun }
  · exact exec_inv h hb he

/-- Settles O13: an instruction executes only inside the budget, and each shape of its outcome is a chain of updates
that keep the invariant. -/
theorem invariantKept : Obligations.InvariantKept := by
  unfold Obligations.InvariantKept
  exact fun _ _ => step_inv

/-- Settles O14: at reset every register is zero, memory, reservation and handler table are empty, and nothing runs. -/
theorem invariantAtReset : Obligations.InvariantAtReset where
  memory := State.wf_reset
  addresses := nofun
  registers := by decide
  zero := rfl
  pc := by decide
  reservation := nofun
  handlers := nofun
  budget := nofun

end Sys2Proof.Machine
end

section
/-! Alignment of pc: an instruction that executes belongs to an enabled extension, so its length and its target are
multiples of IALIGN/8 (00_scope.md R17; 10_state.md R62; 42_control.md R500). -/

namespace Sys2Proof

/-- The bytes of an instruction of an extension: two in the compressed ones, else four. -/
def Ext.parcelLen : Ext → Nat
  | .base | .m | .a | .f | .d => 4
  | .c | .cf | .cd => 2

theorem encode_len (i : Instr) : (encode i).len = i.ext.parcelLen := by cases i <;> rfl

theorem enabled_of_checkExt {cfg : Config} {o : Option Instr} {i : Instr} (h : checkExt cfg o = .ok i) :
    i.ext.enabled cfg = true := by
  cases o with
  | none => cases h
  | some j =>
    by_cases hj : j.ext.enabled cfg = true
    · rw [checkExt, if_pos hj] at h
      exact Decoded.ok.inj h ▸ hj
    · rw [checkExt, if_neg hj] at h
      cases h

/-- Decode answers only instructions of enabled extensions. -/
theorem enabled_of_decode {cfg : Config} {p : Parcel} {i : Instr} (h : decode cfg p = .ok i) :
    i.ext.enabled cfg = true := by
  cases p with
  | word w => exact enabled_of_checkExt h
  | half w =>
    by_cases hc : cfg.extC = true
    · rw [decode, if_pos hc] at h
      exact enabled_of_checkExt h
    · rw [decode, if_neg hc] at h
      cases h

end Sys2Proof

namespace Sys2Proof.Machine

variable {s t : State} {i : Instr}

/-! ### What the front hands on -/

theorem instrAlign_dvd_parcelLen {cfg : Config} {e : Ext} (h : e.enabled cfg = true) :
    instrAlign cfg ∣ e.parcelLen := by
  unfold instrAlign
  cases e with
  | base | m | a | f | d => split <;> simp [Ext.parcelLen]
  | c | cf | cd =>
    have hc : cfg.extC = true := by simp_all [Ext.enabled]
    simp [Ext.parcelLen, hc]

theorem decode_of_decodeFront {p : Parcel} (h : s.decodeFront p = .execute i) : decode s.cfg p = .ok i := by
  unfold State.decodeFront at h
  cases hd : decode s.cfg p with
  | ok j =>
    rw [hd] at h
    cases h
    rfl
  | illegal | unimplemented | truncated =>
    rw [hd] at h
    cases h

theorem decode_of_stepFront (h : s.stepFront = .execute i) : ∃ p, decode s.cfg p = .ok i := by
  unfold State.stepFront at h
  split at h
  · cases hf : s.fetch with
    | fault kind a =>
      rw [hf] at h
      cases h
    | ok p =>
      rw [hf] at h
      exact ⟨p, decode_of_decodeFront h⟩
  · cases h

/-- The instruction the front hands on is what some parcel decodes to. -/
theorem decode_of_front (h : s.front = .execute i) : ∃ p, decode s.cfg p = .ok i := by
  unfold State.front at h
  cases hr : s.run with
  | idle | returned r =>
    rw [hr] at h
    cases h
  | running =>
    rw [hr] at h
    split_ifs at h
    exact decode_of_stepFront h

/-! ### The updates of pc -/

/-- pc is a multiple of IALIGN/8 (10_state.md R62). -/
def State.PcAligned (s : State) : Prop := s.readPc.toNat % instrAlign s.cfg = 0

theorem State.PcAligned.congr (h : s.PcAligned) (hp : t.pc = s.pc) (hc : t.cfg = s.cfg) : t.PcAligned := by
  unfold State.PcAligned
  rwa [State.readPc_congr hp hc, hc]

/-- IALIGN/8 divides 2^XLEN, so reducing modulo 2^XLEN keeps alignment. -/
theorem instrAlign_dvd_size (cfg : Config) : instrAlign cfg ∣ 2 ^ cfg.xlen.bits := by
  unfold instrAlign
  cases cfg.xlen <;> split <;> decide

theorem State.PcAligned.retire (h : s.PcAligned) {len : Nat} (hl : instrAlign s.cfg ∣ len) :
    (s.retire len).PcAligned := by
  unfold State.PcAligned
  rw [State.readPc_retire, State.retire_cfg, Nat.mod_mod_of_dvd _ (instrAlign_dvd_size s.cfg)]
  exact Nat.mod_eq_zero_of_dvd ((Nat.dvd_of_mod_eq_zero h).add hl)

/-- A target that passes the check is aligned: any even one with EXT_C, else a multiple of 4. -/
theorem State.PcAligned.jump {u : State} {target : Word} (hc : u.cfg = s.cfg) (hok : s.targetOk target = true)
    (he : target.toNat % 2 = 0) : (u.jump target).PcAligned := by
  unfold State.PcAligned
  rw [State.readPc_jump, State.jump_cfg, Xlen.narrow_toNat, Nat.mod_mod_of_dvd _ (instrAlign_dvd_size u.cfg), hc]
  unfold State.targetOk at hok
  unfold instrAlign
  split
  · exact he
  · next hC => simpa [hC] using hok

/-- An aligned pc is even whatever IALIGN is. -/
theorem State.PcAligned.even (h : s.PcAligned) : s.readPc.toNat % 2 = 0 := by
  have h2 : 2 ∣ instrAlign s.cfg := by
    unfold instrAlign
    split <;> decide
  exact Nat.mod_eq_zero_of_dvd (h2.trans (Nat.dvd_of_mod_eq_zero h))

/-! ### Instructions and steps -/

/-- An instruction of an enabled extension that runs no callback keeps pc aligned. -/
theorem exec_pcAligned (h : s.PcAligned) (hx : i.ext.enabled s.cfg = true) (hn : i.callsHost = false)
    (he : exec i s = .next t) : t.PcAligned := by
  have hs : Shape i s (.next t) := he ▸ exec_shape i s
  have hl : instrAlign s.cfg ∣ (encode i).len := encode_len i ▸ instrAlign_dvd_parcelLen hx
  cases hs with
  | trap | refused | scRefused => exact h.congr (by simp) (by simp)
  | plain | writeX | writeF | flagsF | flagsX | store | amo | reserve | scFail | scStore | csrRead | csrWrite =>
    exact (h.congr (by simp) (by simp)).retire (by simpa using hl)
  | jump _ _ rd v target hok hev => exact .jump (by simp) hok (hev h.even)
  | host hh | hostFatal hh => simp [hh] at hn

/-- Settles O18: what executes belongs to an enabled extension, so its length is a multiple of IALIGN/8, and a target
that passes the alignment check is one too. -/
theorem pcStaysAligned : Obligations.PcStaysAligned := by
  unfold Obligations.PcStaysAligned
  intro s t (h : s.PcAligned) hn he
  show t.PcAligned
  rcases step_cases s with ⟨u, hf, hstep⟩ | ⟨i, hf, hstep⟩ <;> rw [hstep] at he
  · cases he
    rcases s.front_cases with ⟨-, hf'⟩ | ⟨-, r, hf'⟩ | ⟨-, -, -, i, hf'⟩ <;> cases hf.symm.trans hf'
    · exact h
    · exact h.congr rfl rfl
  · obtain ⟨p, hp⟩ := decode_of_front hf
    exact exec_pcAligned h (enabled_of_decode hp) (hn i hf) he

end Sys2Proof.Machine
end

section
/-! Who changes the reservation (10_state.md R87; 46_a.md R731), and what reset leaves (10_state.md R95;
70_reset_and_hazards.md R1200). -/

namespace Sys2Proof.Machine

/-! ### The reservation -/

/-- SC is one of the instructions that touch the reservation. -/
theorem reserves_of_conditional {i : Instr} (h : i.conditional = true) : i.reserves = true := by
  unfold Instr.conditional at h
  split at h
  · rfl
  · rfl
  · cases h

/-- Settles O17: the shapes that set or clear the reservation are those of LR and SC; the host interface cannot reach
it. -/
theorem reservationOwners : Obligations.ReservationOwners := by
  unfold Obligations.ReservationOwners
  intro i s t hn he
  have hs : Shape i s (.next t) := he ▸ exec_shape i s
  cases hs with
  | reserve _ hr | scFail _ hr | scStore _ hr => simp [hr] at hn
  | scRefused hr => simp [reserves_of_conditional hr] at hn
  | trap | refused | plain | writeX | writeF | flagsF | flagsX | store | amo | jump | csrRead | csrWrite | host
  | hostFatal => simp

/-! ### Reset -/

theorem readX_resetBlock (s : State) (r : Reg) : s.resetBlock.readX r = 0#64 := by
  have hx : s.resetBlock.x[r.toNat] = 0#64 := Vector.getElem_replicate _
  unfold State.readX
  split
  · rfl
  · rw [hx]
    cases s.resetBlock.cfg.xlen <;> rfl

theorem readF_resetBlock (s : State) (r : FReg) : s.resetBlock.readF r = 0#64 := Vector.getElem_replicate _

/-- Settles O60: registers read zero since the register files are all zeros; every other field is set or kept by
definition. -/
theorem resetValues : Obligations.ResetValues := by
  unfold Obligations.ResetValues
  exact fun s => ⟨readX_resetBlock s, readF_resetBlock s, rfl, rfl, rfl, rfl, rfl, rfl, rfl, rfl, rfl, rfl⟩

end Sys2Proof.Machine
end

section
/-! The counters, read by a set or a clear that writes nothing (10_state.md R74 to R77; 44_system.md R607, R608, R610,
R611). -/

namespace Sys2Proof.Machine

variable {s : State} {i : Instr} {rd : Reg} {num : CsrNum} {c : Csr}

theorem State.csrDrawn_draws (s : State) (c : Csr) : (s.csrDrawn c).draws = s.draws + if c.drawsTime then 1 else 0 := by
  unfold State.csrDrawn
  split <;> rfl

/-- The four forms that read a CSR and write none. -/
theorem exec_csrRead (s : State)
    (hi : i = .csrrs rd 0#5 num ∨ i = .csrrc rd 0#5 num ∨ i = .csrrsi rd 0#5 num ∨ i = .csrrci rd 0#5 num) :
    exec i s = s.csrOp i.bits num rd none := by
  rcases hi with rfl | rfl | rfl | rfl <;> rfl

/-- The draw of a read is the model's own count, which no frame looks at. -/
theorem onlyX_csrDrawn_writeX (s : State) (c : Csr) (rd : Reg) (v : Word) :
    OnlyX s ((s.csrDrawn c).writeX rd v) rd :=
  ⟨⟨by simp, by simp, by simp, by simp, by simp, by simp, by simp, by simp, by simp, by simp⟩,
    fun r hr => (sameXBut_writeX _ rd v r hr).trans (State.readX_congr (by simp) (by simp) r), by simp,
    fun r _ => State.readF_congr (by simp) r, by simp, by simp, fun b => by simp⟩

/-- A CSR read completes with the CSR's value, and takes the draws of that CSR. -/
theorem yieldsX_of_csrRead (he : exec i s = s.csrOp i.bits num rd none) (hc : Csr.ofNum s.cfg num = some c) {v : Nat}
    (hv : (s.csrRead c).toNat % s.size = v % s.size) :
    YieldsX i s rd (v : Int) 4 ∧
      ∀ t, exec i s = .next t → t.draws = s.draws + if c.drawsTime then 1 else 0 := by
  have hx : exec i s = .next (((s.csrDrawn c).writeX rd (s.csrRead c)).retire 4) := by
    rw [he, State.csrOp, hc]
  refine ⟨⟨_, hx, fun hrd => ?_, (onlyX_csrDrawn_writeX s c rd _).retire 4,
    advanced_retire 4 (by simp) (by simp) (by simp)⟩, fun t ht => ?_⟩
  · have hU : (((s.csrDrawn c).writeX rd (s.csrRead c)).retire 4).U rd = ((s.csrRead c).toNat : Int) % s.size :=
      (U_writeX (s.csrDrawn c) (s.csrRead c) hrd).trans (by simp [State.size])
    rw [hU]
    exact_mod_cast hv
  · cases hx.symm.trans ht
    simp [State.csrDrawn_draws]

theorem narrow_toNat_mod_size (s : State) (v : Word) : (s.cfg.xlen.narrow v).toNat % s.size = v.toNat % s.size := by
  rw [Xlen.narrow_toNat]
  exact Nat.mod_mod _ _

/-- The high halves exist on RV32. -/
theorem ofNum_high {cfg : Config} (h : cfg.xlen = .rv32) :
    Csr.ofNum cfg 0xC80#12 = some .cycleh ∧ Csr.ofNum cfg 0xC81#12 = some .timeh ∧
      Csr.ofNum cfg 0xC82#12 = some .instreth := by
  simp [Csr.ofNum, h, Xlen.is32]

theorem high_toNat_mod_size (s : State) (v : Word) : (v >>> 32).toNat % s.size = v.toNat / 2 ^ 32 % s.size := by
  rw [BitVec.toNat_ushiftRight, Nat.shiftRight_eq_div_pow]

/-- Settles O33: each of the four forms is the same read, which completes with the counter's value. -/
theorem counterReads : Obligations.CounterReads := by
  unfold Obligations.CounterReads
  intro s rd i num hi
  have he := exec_csrRead s hi
  refine ⟨?_, ?_, ?_, fun h32 => ?_⟩
  · rintro rfl
    exact yieldsX_of_csrRead (c := .cycle) he rfl (narrow_toNat_mod_size s _)
  · rintro rfl
    exact yieldsX_of_csrRead (c := .time) he rfl (narrow_toNat_mod_size s _)
  · rintro rfl
    exact yieldsX_of_csrRead (c := .instret) he rfl (narrow_toNat_mod_size s _)
  · obtain ⟨hcycleh, htimeh, hinstreth⟩ := ofNum_high h32
    refine ⟨?_, ?_, ?_⟩ <;> rintro rfl
    · exact yieldsX_of_csrRead he hcycleh (high_toNat_mod_size s _)
    · exact yieldsX_of_csrRead he htimeh (high_toNat_mod_size s _)
    · exact yieldsX_of_csrRead he hinstreth (high_toNat_mod_size s _)

end Sys2Proof.Machine
end

section
/-! What refuses a byte of memory (20_memory.md R171, R173, R174), and that a fetch reads the bytes a store has just
written (20_memory.md R155, R157, R190; 40_cycle.md R352; 70_reset_and_hazards.md R1212). -/

namespace Sys2Proof.Machine

/-! ### The refusal of a byte -/

/-- The cap refuses whatever the pages say (20_memory.md R171). -/
theorem Memory.byteRefusal_of_cap_le {m : Memory} {b : Nat} (h : m.cap ≤ b) (acc : Access) :
    m.byteRefusal acc b = some .outOfBoundsFault := if_pos h

/-- Below the cap a page without attributes refuses every access (20_memory.md R174). -/
theorem Memory.byteRefusal_of_attr_none {m : Memory} {b : Nat} (hb : b < m.cap) (ha : m.attr (pageOf b) = none)
    (acc : Access) : m.byteRefusal acc b = some acc.unmappedKind := by
  rw [Memory.byteRefusal, if_neg (Nat.not_le_of_lt hb), ha]

/-- Below the cap the attributes of the page decide (20_memory.md R173). -/
theorem Memory.byteRefusal_of_attr_some {m : Memory} {b : Nat} {a : PageAttr} (hb : b < m.cap)
    (ha : m.attr (pageOf b) = some a) (acc : Access) :
    m.byteRefusal acc b = if acc.allowed a then none else some acc.protectKind := by
  rw [Memory.byteRefusal, if_neg (Nat.not_le_of_lt hb), ha]

/-- What is refused depends on the cap and the pages, not on the bytes. -/
theorem Memory.byteRefusal_congr {m m' : Memory} (hc : m'.cap = m.cap) (hp : m'.pages = m.pages)
    (hu : m'.unmapped = m.unmapped) : m'.byteRefusal = m.byteRefusal := by
  funext acc b
  rw [Memory.byteRefusal, Memory.byteRefusal, Memory.attr, Memory.attr, hc, hp, hu]

theorem Memory.attr_eq_none {m : Memory} {p : Nat} (hp : assocGet m.pages p = none) (hu : m.unmapped = none) :
    m.attr p = none := by
  rw [Memory.attr, hp, hu]

/-- The map answers for its own pages, the choice for unmapped ones for the others. -/
theorem Memory.attr_eq_some {m : Memory} {p : Nat} {a : PageAttr}
    (h : assocGet m.pages p = some a ∨ assocGet m.pages p = none ∧ m.unmapped = some a) : m.attr p = some a := by
  rcases h with hp | ⟨hp, hu⟩
  · rw [Memory.attr, hp]
  · rw [Memory.attr, hp, hu]

/-- Settles O29: the cap is tested first, then the attributes of the page; an access asks byte by byte from its lowest
address. -/
theorem memoryRefusals : Obligations.MemoryRefusals := by
  unfold Obligations.MemoryRefusals
  refine ⟨fun m b => ⟨Memory.byteRefusal_of_cap_le, fun hb hp hu => ?_, fun a hb ha => ?_⟩,
    fun _ _ _ _ => ⟨accepts_iff, fun _ => refuses_iff⟩⟩
  · have hr : ∀ acc : Access, m.byteRefusal acc b = some acc.unmappedKind :=
      Memory.byteRefusal_of_attr_none hb (Memory.attr_eq_none hp hu)
    exact ⟨hr .fetch, hr .read, hr .write⟩
  · have hr : ∀ acc : Access, m.byteRefusal acc b = if acc.allowed a then none else some acc.protectKind :=
      Memory.byteRefusal_of_attr_some hb (Memory.attr_eq_some ha)
    exact ⟨hr .fetch, hr .read, hr .write⟩

/-- A change of the bytes alone leaves the accepted accesses. -/
theorem SameMachine.accepts_congr {s t : State} (h : SameMachine s t) {acc : Access} {a n : Nat} :
    t.Accepts acc a n ↔ s.Accepts acc a n := by
  rw [State.Accepts, State.Accepts, Memory.byteRefusal_congr h.cap h.pages h.unmapped, State.size, State.size, h.cfg]

/-- A shorter access at the same address is accepted. -/
theorem State.Accepts.take {s : State} {acc : Access} {a m n : Nat} (h : s.Accepts acc a (m + n)) :
    s.Accepts acc a m := fun k hk => h k (by omega)

/-- The rest of an accepted access is accepted. -/
theorem State.Accepts.drop {s : State} {acc : Access} {a m n : Nat} (h : s.Accepts acc a (m + n)) :
    s.Accepts acc ((a + m) % s.size) n := fun k hk => by
  rw [Nat.mod_add_mod, Nat.add_assoc]
  exact h (m + k) (by omega)

/-! ### The value of bytes of memory -/

/-- An address is read modulo 2^XLEN. -/
theorem State.bytesAt_mod_size (s : State) (a n : Nat) : s.bytesAt (a % s.size) n = s.bytesAt a n := by
  induction n with
  | zero => rfl
  | succ n ih => rw [State.bytesAt, State.bytesAt, ih, Nat.mod_add_mod]

/-- The higher bytes are the high part of the value. -/
theorem State.bytesAt_add (s : State) (a m n : Nat) :
    s.bytesAt a (m + n) = s.bytesAt a m + s.bytesAt (a + m) n * 256 ^ m := by
  induction n with
  | zero => simp [State.bytesAt]
  | succ n ih =>
    rw [← Nat.add_assoc, State.bytesAt, ih, State.bytesAt, Nat.add_assoc a m n]
    ring

/-- The bytes stored, read back. -/
theorem Stored.bytesAt_eq {s t : State} {a n v : Nat} (h : Stored s t a n v) (hc : t.cfg = s.cfg) {m : Nat}
    (hm : m ≤ n) : t.bytesAt a m = v % 256 ^ m := by
  induction m with
  | zero => simp [State.bytesAt, Nat.mod_one]
  | succ m ih =>
    have hbyte : t.mem.byte ((a + m) % t.size) = BitVec.ofNat 8 (v / 256 ^ m) := by
      rw [State.size, hc]
      exact h.1 m (by omega)
    rw [State.bytesAt, ih (by omega), hbyte, BitVec.toNat_ofNat, Nat.mod_pow_succ (b := 256)]
    ring

/-! ### The fetch of a word -/

theorem isWordStart_ofNat (n : Nat) : isWordStart (BitVec.ofNat 16 n) = decide (n % 4 = 3) := by
  unfold isWordStart
  rw [Bool.eq_iff_iff, beq_iff_eq, decide_eq_true_iff, ← BitVec.toNat_inj]
  simp only [BitVec.extractLsb'_toNat, BitVec.toNat_ofNat, Nat.shiftRight_zero]
  omega

theorem joinHalves_ofNat {lo : Nat} (h : lo < 2 ^ 16) (hi : Nat) :
    joinHalves (BitVec.ofNat 16 hi) (BitVec.ofNat 16 lo) = BitVec.ofNat 32 (lo + hi * 2 ^ 16) := by
  apply BitVec.eq_of_toNat_eq
  rw [joinHalves, BitVec.toNat_append, BitVec.toNat_ofNat, BitVec.toNat_ofNat, BitVec.toNat_ofNat,
    Nat.mod_eq_of_lt h, ← Nat.shiftLeft_add_eq_or_of_lt h, Nat.shiftLeft_eq]
  omega

theorem State.withFetch16_of_accepts {s : State} {a : Word} (h : s.Accepts .fetch a.toNat 2)
    (k : BitVec 16 → Fetched) : s.withFetch16 a k = k (BitVec.ofNat 16 (s.bytesAt a.toNat 2)) := by
  rw [State.withFetch16, accepts_iff.mpr h, ← loadValue_toNat s a (by decide), BitVec.ofNat_toNat]

/-- A fetch of four accepted bytes whose first halfword starts a word answers the word, across the end of the address
space too. -/
theorem State.fetch_word {s : State} (h : s.Accepts .fetch s.readPc.toNat 4)
    (hw : s.bytesAt s.readPc.toNat 2 % 4 = 3) :
    s.fetch = .ok (.word (BitVec.ofNat 32 (s.bytesAt s.readPc.toNat 4))) := by
  have hnext : (s.cfg.xlen.narrow (s.readPc + 2)).toNat = (s.readPc.toNat + 2) % s.size :=
    s.cfg.xlen.narrow_add_toNat _ _
  have hvalue : s.bytesAt s.readPc.toNat 4 =
      s.bytesAt s.readPc.toNat 2 + s.bytesAt (s.readPc.toNat + 2) 2 * 2 ^ 16 := s.bytesAt_add _ 2 2
  have hlo : s.Accepts .fetch s.readPc.toNat 2 := State.Accepts.take (n := 2) h
  have hhi : s.Accepts .fetch (s.cfg.xlen.narrow (s.readPc + 2)).toNat 2 :=
    hnext ▸ State.Accepts.drop (m := 2) h
  rw [State.fetch, State.withFetch16_of_accepts hlo, isWordStart_ofNat, if_pos (decide_eq_true hw),
    State.withFetch16_of_accepts hhi, hnext, State.bytesAt_mod_size, joinHalves_ofNat (bytesAt_lt s _ 2), hvalue]

/-- Settles O28: the store leaves the word at the new pc and what the memory accepts as it was, so the fetch there
answers the word. -/
theorem fetchSeesTheStore : Obligations.FetchSeesTheStore := by
  unfold Obligations.FetchSeesTheStore
  intro s rs1 rs2 imm hwrite hfetch hpc hword
  have hsw : Stores (.sw rs1 rs2 imm) s (s.address rs1 imm) 4 (s.N rs2) 4 :=
    stores_of_withWrite (by decide) (address_lt s rs1 _) rfl
  obtain ⟨t, ht, hstored, honly, hadvanced⟩ := hsw.1 hwrite
  have hm : SameMachine s t := honly.machine
  have htpc : t.readPc.toNat = (s.address rs1 imm).toNat := hadvanced.1.trans hpc
  have hfirst : t.bytesAt t.readPc.toNat 2 % 4 = 3 := by
    rw [htpc, hstored.bytesAt_eq hm.cfg (by decide)]
    omega
  have hlow : BitVec.ofNat 32 (s.N rs2 % 256 ^ 4) = BitVec.ofNat 32 (s.N rs2) :=
    BitVec.eq_of_toNat_eq (Nat.mod_mod _ _)
  refine ⟨t, ht, ?_⟩
  rw [State.fetch_word (htpc ▸ hm.accepts_congr.mpr hfetch) hfirst, htpc, hstored.bytesAt_eq hm.cfg le_rfl, hlow]

end Sys2Proof.Machine
end

section
/-! The formats (30_encoding.md R252, R270 to R280; 49_c.md): cutting a parcel into fields and putting the fields
together are inverse, and so are scattering an immediate over the fields of its format and reading it back. -/

namespace Sys2Proof

/-! ### Slices of bit vectors -/

theorem extractLsb'_extractLsb' {w s n s' n' : Nat} {x : BitVec w} (h : s' + n' ≤ n) :
    (x.extractLsb' s n).extractLsb' s' n' = x.extractLsb' (s + s') n' := by
  refine BitVec.eq_of_getLsbD_eq fun i hi => ?_
  simp [hi, show s' + i < n by omega, Nat.add_assoc]

theorem ofBool_getLsbD {w : Nat} (x : BitVec w) (i : Nat) : BitVec.ofBool (x.getLsbD i) = x.extractLsb' i 1 := by
  refine BitVec.eq_of_getLsbD_eq fun j hj => ?_
  obtain rfl : j = 0 := by omega
  simp

/-- The rules for slices, bundled so that one name gives `simp` them all: a slice of a concatenation lies in one part or
the other, a slice of a slice is a slice, neighbouring slices join, and the slice of every bit is the whole. -/
theorem slice_rules :
    (∀ {v w s n : Nat} {x : BitVec v} {y : BitVec w}, s + n ≤ w →
      (x ++ y).extractLsb' s n = y.extractLsb' s n) ∧
    (∀ {v w s n : Nat} {x : BitVec v} {y : BitVec w}, w ≤ s →
      (x ++ y).extractLsb' s n = x.extractLsb' (s - w) n) ∧
    (∀ {w s n s' n' : Nat} {x : BitVec w}, s' + n' ≤ n →
      (x.extractLsb' s n).extractLsb' s' n' = x.extractLsb' (s + s') n') ∧
    (∀ {w s n s' n' : Nat} {x : BitVec w}, s' = s + n →
      x.extractLsb' s' n' ++ x.extractLsb' s n = x.extractLsb' s (n' + n)) ∧
    ∀ {w : Nat} {x : BitVec w}, x.extractLsb' 0 w = x :=
  ⟨BitVec.extractLsb'_append_eq_of_add_le, BitVec.extractLsb'_append_eq_of_le, extractLsb'_extractLsb',
    BitVec.extractLsb'_append_extractLsb'_eq_extractLsb', BitVec.extractLsb'_eq_self⟩

/-! ### Fields and parcels -/

theorem Fields.ofWord_toWord (f : Fields) : Fields.ofWord f.toWord = f := by
  simp (disch := decide) only [ofWord, toWord, slice_rules, Nat.reduceSub]

theorem Fields.toWord_ofWord (w : BitVec 32) : (Fields.ofWord w).toWord = w := by
  simp (disch := decide) only [ofWord, toWord, slice_rules]

theorem CFields.ofHalf_toHalf (c : CFields) : CFields.ofHalf c.toHalf = c := by
  simp (disch := decide) only [ofHalf, toHalf, slice_rules, Nat.reduceSub]

theorem CFields.toHalf_ofHalf (h : BitVec 16) : (CFields.ofHalf h).toHalf = h := by
  simp (disch := decide) only [ofHalf, toHalf, slice_rules]

/-! ### The formats put the fields of a word back -/

section
variable {f : Fields} {op : BitVec 7} {f3 : BitVec 3}

theorem encR_fields {f7 : BitVec 7} {rs2 rs1 rd : BitVec 5} (hop : f.opcode = op) (h7 : f.funct7 = f7)
    (h3 : f.funct3 = f3) (h2 : f.rs2 = rs2) (h1 : f.rs1 = rs1) (hd : f.rd = rd) :
    encR f7 f3 op rd rs1 rs2 = .word f.toWord := by
  subst hop h7 h3 h2 h1 hd
  rfl

theorem encI_fields (hop : f.opcode = op) (h3 : f.funct3 = f3) :
    encI f3 op f.rd f.rs1 f.immI = .word f.toWord := by
  refine encR_fields hop ?_ h3 ?_ rfl rfl <;> simp (disch := decide) only [Fields.immI, slice_rules, Nat.reduceSub]

theorem encS_fields (hop : f.opcode = op) (h3 : f.funct3 = f3) :
    encS f3 op f.rs1 f.rs2 f.immS = .word f.toWord := by
  refine encR_fields hop ?_ h3 rfl rfl ?_ <;> simp (disch := decide) only [Fields.immS, slice_rules, Nat.reduceSub]

theorem encB_fields (hop : f.opcode = op) (h3 : f.funct3 = f3) :
    encB f3 op f.rs1 f.rs2 f.offB = .word f.toWord := by
  refine encR_fields hop ?_ h3 rfl rfl ?_ <;>
    simp (disch := decide) only [Fields.offB, slice_rules, Nat.reduceSub, Nat.add_zero]

theorem encU_fields (hop : f.opcode = op) : encU op f.rd f.immU = .word f.toWord := by
  refine encR_fields hop ?_ ?_ ?_ ?_ rfl <;> simp (disch := decide) only [Fields.immU, slice_rules, Nat.reduceSub]

theorem encJ_fields (hop : f.opcode = op) : encJ op f.rd f.offJ = .word f.toWord := by
  refine encR_fields hop ?_ ?_ ?_ ?_ rfl <;>
    simp (disch := decide) only [Fields.offJ, slice_rules, Nat.reduceSub, Nat.add_zero]

theorem encShift_fields {f6 : BitVec 6} (hop : f.opcode = op) (h3 : f.funct3 = f3) (h6 : f.funct6 = f6) :
    encShift f6 f3 op f.rd f.rs1 f.shamt = .word f.toWord := by
  subst h6
  refine encR_fields hop ?_ h3 ?_ rfl rfl <;>
    simp (disch := decide) only [Fields.funct6, Fields.shamt, slice_rules, Nat.reduceSub, Nat.add_zero]

theorem encAmo_fields {f5 : BitVec 5} {rs2 : BitVec 5} (hop : f.opcode = 0x2f#7) (h3 : f.funct3 = f3)
    (h5 : f.funct5 = f5) (h2 : f.rs2 = rs2) : encAmo f5 f3 f.rd f.rs1 rs2 f.aq f.rl = .word f.toWord := by
  subst h5
  refine encR_fields hop ?_ h3 h2 rfl rfl
  simp (disch := decide) only [Fields.funct5, Fields.aq, Fields.rl, ofBool_getLsbD, slice_rules]

theorem encR4_fields {fmt : BitVec 2} (hop : f.opcode = op) (hf : f.fmt = fmt) :
    encR4 fmt op f.rd f.rs1 f.rs2 f.rs3 f.funct3 = .word f.toWord := by
  subst hf
  refine encR_fields hop ?_ rfl rfl rfl rfl
  simp (disch := decide) only [Fields.rs3, Fields.fmt, slice_rules]

theorem encFence_fields (hop : f.opcode = op) (h3 : f.funct3 = f3) :
    encR (f.fm ++ f.pred.extractLsb' 1 3) f3 op f.rd f.rs1 (f.pred.extractLsb' 0 1 ++ f.succ) = .word f.toWord := by
  refine encR_fields hop ?_ h3 ?_ rfl rfl <;>
    simp (disch := decide) only [Fields.fm, Fields.pred, Fields.succ, slice_rules, Nat.reduceSub, Nat.add_zero]

end

/-! ### The formats put the fields of a halfword back -/

section
variable {c : CFields} {op : BitVec 2} {f3 : BitVec 3}

theorem encC_fields {b12 : BitVec 1} {mid : BitVec 2} {r1 : BitVec 3} {b65 : BitVec 2} {r2 : BitVec 3}
    (hop : c.op = op) (h3 : c.funct3 = f3) (h12 : c.b12 = b12) (hm : c.mid = mid) (h1 : c.r1 = r1) (h65 : c.b65 = b65)
    (h2 : c.r2 = r2) : encC op f3 b12 mid r1 b65 r2 = .half c.toHalf := by
  subst hop h3 h12 hm h1 h65 h2
  rfl

theorem encCI_fields {b12 : BitVec 1} {rd low5 : BitVec 5} (hop : c.op = op) (h3 : c.funct3 = f3)
    (h12 : c.b12 = b12) (hd : c.rd = rd) (hl : c.rs2 = low5) : encCI op f3 b12 rd low5 = .half c.toHalf := by
  subst hd hl
  refine encC_fields hop h3 h12 ?_ ?_ ?_ ?_ <;>
    simp (disch := decide) only [CFields.rd, CFields.rs2, slice_rules, Nat.reduceSub]

theorem encCI6_fields {rd : BitVec 5} (hop : c.op = op) (h3 : c.funct3 = f3) (hd : c.rd = rd) :
    encCI6 op f3 rd c.imm6 = .half c.toHalf := by
  subst hd
  refine encC_fields hop h3 ?_ ?_ ?_ ?_ ?_ <;>
    simp (disch := decide) only [CFields.rd, CFields.imm6, slice_rules, Nat.reduceSub, Nat.zero_add]

theorem encCB6_fields {mid : BitVec 2} (hop : c.op = 1#2) (h3 : c.funct3 = 4#3) (hm : c.mid = mid) :
    encCB6 mid c.r1 c.imm6 = .half c.toHalf := by
  refine encC_fields hop h3 ?_ hm rfl ?_ ?_ <;>
    simp (disch := decide) only [CFields.imm6, slice_rules, Nat.reduceSub]

theorem encCLd_fields (hop : c.op = 0#2) (h3 : c.funct3 = f3) :
    encCLd f3 c.r1 c.r2 c.uimmD = .half c.toHalf := by
  refine encC_fields hop h3 ?_ ?_ rfl ?_ rfl <;>
    simp (disch := decide) only [CFields.uimmD, slice_rules, Nat.reduceSub]

theorem encCLw_fields (hop : c.op = 0#2) (h3 : c.funct3 = f3) :
    encCLw f3 c.r1 c.r2 c.uimmW = .half c.toHalf := by
  refine encC_fields hop h3 ?_ ?_ rfl ?_ rfl <;>
    simp (disch := decide) only [CFields.uimmW, slice_rules, Nat.reduceSub, Nat.add_zero]

theorem encCJ_fields (hop : c.op = 1#2) (h3 : c.funct3 = f3) : encCJ f3 c.offJ = .half c.toHalf := by
  refine encC_fields hop h3 ?_ ?_ ?_ ?_ ?_ <;>
    simp (disch := decide) only [CFields.offJ, slice_rules, Nat.reduceSub, Nat.add_zero]

theorem encCB_fields (hop : c.op = 1#2) (h3 : c.funct3 = f3) : encCB f3 c.r1 c.offB = .half c.toHalf := by
  refine encC_fields hop h3 ?_ ?_ rfl ?_ ?_ <;>
    simp (disch := decide) only [CFields.offB, slice_rules, Nat.reduceSub, Nat.add_zero]

theorem encLdsp_fields (hop : c.op = 2#2) (h3 : c.funct3 = f3) :
    encLdsp f3 c.rd c.uimmLdsp = .half c.toHalf := by
  refine encC_fields hop h3 ?_ ?_ ?_ ?_ ?_ <;>
    simp (disch := decide) only [CFields.rd, CFields.uimmLdsp, slice_rules, Nat.reduceSub]

theorem encLwsp_fields (hop : c.op = 2#2) (h3 : c.funct3 = f3) :
    encLwsp f3 c.rd c.uimmLwsp = .half c.toHalf := by
  refine encC_fields hop h3 ?_ ?_ ?_ ?_ (.trans ?_ (slices_append _ 0 2 1)) <;>
    simp (disch := decide) only [CFields.rd, CFields.uimmLwsp, slice_rules, Nat.reduceSub, Nat.zero_add, Nat.add_zero]

theorem encSdsp_fields (hop : c.op = 2#2) (h3 : c.funct3 = f3) :
    encSdsp f3 c.rs2 c.uimmSdsp = .half c.toHalf := by
  refine encC_fields hop h3 ?_ ?_ ?_ ?_ ?_ <;>
    simp (disch := decide) only [CFields.uimmSdsp, CFields.rs2, slice_rules, Nat.reduceSub]

theorem encSwsp_fields (hop : c.op = 2#2) (h3 : c.funct3 = f3) :
    encSwsp f3 c.rs2 c.uimmSwsp = .half c.toHalf := by
  refine encC_fields hop h3 ?_ ?_ ?_ ?_ ?_ <;>
    simp (disch := decide) only [CFields.uimmSwsp, CFields.rs2, slice_rules, Nat.reduceSub, Nat.add_zero]

theorem encode_cAddi4spn_fields (hop : c.op = 0#2) (h3 : c.funct3 = 0#3) :
    encode (.cAddi4spn c.r2 c.nzuimm) = .half c.toHalf := by
  refine encC_fields hop h3 ?_ ?_ ?_ ?_ rfl <;>
    simp (disch := decide) only [CFields.nzuimm, slice_rules, Nat.reduceSub, Nat.add_zero]

theorem encode_cAddi16sp_fields (hop : c.op = 1#2) (h3 : c.funct3 = 3#3) (hd : c.rd = 2#5) :
    encode (.cAddi16sp c.nzimm16) = .half c.toHalf := by
  refine encCI_fields hop h3 ?_ hd ?_
  · simp (disch := decide) only [CFields.nzimm16, slice_rules, Nat.reduceSub]
  · simp (disch := decide) only [CFields.rs2, CFields.nzimm16, slice_rules, Nat.reduceSub, Nat.add_zero]
    rw [BitVec.append_assoc]
    simp (disch := decide) only [slice_rules]
    rfl

end

end Sys2Proof
end

section
/-! Whatever decodes is the encoding of a well-formed instruction: each decode function selects rows of its own opcode
only, and the row's format puts the parcel back together (30_encoding.md R290 to R293, R300, R310; 49_c.md R1003 to
R1045). -/

namespace Sys2Proof

/-- The row `o` that the parcel `p` selects, if any, is well formed and encoded as `p`. -/
def Selects (xl : Xlen) (p : Parcel) (o : Option Instr) : Prop :=
  ∀ i, o = some i → i.wellFormed xl = true ∧ encode i = p

/-! ### The ways to select a row -/

section
variable {xl : Xlen} {p : Parcel} {i : Instr}

theorem Selects.none : Selects xl p none := nofun

theorem Selects.row (hw : i.wellFormed xl = true) (he : encode i = p) : Selects xl p (some i) :=
  fun _ h => Option.some.inj h ▸ ⟨hw, he⟩

/-- A row under a condition that the constraints of the table ask for. -/
theorem Selects.rowIf {ok : Bool} (hw : ok = true → i.wellFormed xl = true) (he : ok = true → encode i = p) :
    Selects xl p (rowIf ok i) := by
  cases ok with
  | false => exact .none
  | true => exact .row (hw rfl) (he rfl)

theorem Selects.row64 (hw : xl.is64 = true → i.wellFormed xl = true) (he : encode i = p) :
    Selects xl p (only64 xl i) := by
  cases xl with
  | rv32 => exact .none
  | rv64 => exact .row (hw rfl) he

theorem Selects.shift {shamt : BitVec 6} (hw : xl.shamtOk shamt = true → i.wellFormed xl = true)
    (he : encode i = p) : Selects xl p (shiftRow xl shamt i) := by
  cases xl with
  | rv32 =>
    by_cases h : shamt.getLsbD 5 = true
    · rw [shiftRow, if_pos h]
      exact .none
    · rw [shiftRow, if_neg h]
      exact .row (hw (by simpa [Xlen.shamtOk] using h)) he
  | rv64 => exact .row (hw rfl) he

end

/-! ### Words, opcode by opcode -/

section
variable {xl : Xlen} {f : Fields}

theorem selects_decodeLoad (hop : f.opcode = 0x03#7) : Selects xl (.word f.toWord) (decodeLoad xl f) := by
  unfold decodeLoad
  split
  case h_4 h3 | h_7 h3 => exact .row64 id (encI_fields hop h3)
  case h_8 => exact .none
  all_goals exact .row rfl (encI_fields hop (by assumption))

theorem selects_decodeStore (hop : f.opcode = 0x23#7) : Selects xl (.word f.toWord) (decodeStore xl f) := by
  unfold decodeStore
  split
  case h_1 h3 | h_2 h3 | h_3 h3 => exact .row rfl (encS_fields hop h3)
  case h_4 h3 => exact .row64 id (encS_fields hop h3)
  case h_5 => exact .none

theorem selects_decodeLoadFp (hop : f.opcode = 0x07#7) : Selects xl (.word f.toWord) (decodeLoadFp f) := by
  unfold decodeLoadFp
  split
  case h_1 h3 | h_2 h3 => exact .row rfl (encI_fields hop h3)
  case h_3 => exact .none

theorem selects_decodeStoreFp (hop : f.opcode = 0x27#7) : Selects xl (.word f.toWord) (decodeStoreFp f) := by
  unfold decodeStoreFp
  split
  case h_1 h3 | h_2 h3 => exact .row rfl (encS_fields hop h3)
  case h_3 => exact .none

theorem selects_decodeMiscMem (hop : f.opcode = 0x0f#7) : Selects xl (.word f.toWord) (decodeMiscMem f) := by
  unfold decodeMiscMem
  split
  case h_1 h3 => exact .row rfl (encFence_fields hop h3)
  case h_2 h3 => exact .row rfl (encI_fields hop h3)
  case h_3 => exact .none

theorem selects_decodeOpImm (hop : f.opcode = 0x13#7) : Selects xl (.word f.toWord) (decodeOpImm xl f) := by
  unfold decodeOpImm
  split
  case h_2 h3 =>
    split
    case h_1 h6 => exact .shift id (encShift_fields hop h3 h6)
    case h_2 => exact .none
  case h_6 h3 =>
    split
    case h_1 h6 | h_2 h6 => exact .shift id (encShift_fields hop h3 h6)
    case h_3 => exact .none
  case h_9 => exact .none
  all_goals exact .row rfl (encI_fields hop (by assumption))

theorem selects_decodeOpImm32 (hop : f.opcode = 0x1b#7) : Selects xl (.word f.toWord) (decodeOpImm32 xl f) := by
  unfold decodeOpImm32
  split
  case h_1 h3 => exact .row64 id (encI_fields hop h3)
  case h_2 h3 =>
    split
    case h_1 h7 => exact .row64 id (encR_fields hop h7 h3 rfl rfl rfl)
    case h_2 => exact .none
  case h_3 h3 =>
    split
    case h_1 h7 | h_2 h7 => exact .row64 id (encR_fields hop h7 h3 rfl rfl rfl)
    case h_3 => exact .none
  case h_4 => exact .none

theorem selects_decodeOp (hop : f.opcode = 0x33#7) : Selects xl (.word f.toWord) (decodeOp f) := by
  unfold decodeOp
  split
  case h_19 => exact .none
  all_goals exact .row rfl (encR_fields hop (by assumption) (by assumption) rfl rfl rfl)

theorem selects_decodeOp32 (hop : f.opcode = 0x3b#7) : Selects xl (.word f.toWord) (decodeOp32 xl f) := by
  unfold decodeOp32
  split
  case h_11 => exact .none
  all_goals exact .row64 id (encR_fields hop (by assumption) (by assumption) rfl rfl rfl)

theorem selects_decodeAmo (hop : f.opcode = 0x2f#7) : Selects xl (.word f.toWord) (decodeAmo xl f) := by
  unfold decodeAmo
  split
  case h_1 h3 h5 =>
    split
    · next h2 => exact .row rfl (encAmo_fields hop h3 h5 h2)
    · exact .none
  case h_12 h3 h5 =>
    split
    · next h2 => exact .row64 id (encAmo_fields hop h3 h5 h2)
    · exact .none
  case h_23 => exact .none
  case h_2 | h_3 | h_4 | h_5 | h_6 | h_7 | h_8 | h_9 | h_10 | h_11 =>
    exact .row rfl (encAmo_fields hop (by assumption) (by assumption) rfl)
  all_goals exact .row64 id (encAmo_fields hop (by assumption) (by assumption) rfl)

theorem selects_decodeFma {op : BitVec 7} {single double : FReg → FReg → FReg → FReg → BitVec 3 → Instr}
    (hop : f.opcode = op)
    (hs : ∀ rd rs1 rs2 rs3 rm, (single rd rs1 rs2 rs3 rm).wellFormed xl = true ∧
      encode (single rd rs1 rs2 rs3 rm) = encR4 0#2 op rd rs1 rs2 rs3 rm)
    (hd : ∀ rd rs1 rs2 rs3 rm, (double rd rs1 rs2 rs3 rm).wellFormed xl = true ∧
      encode (double rd rs1 rs2 rs3 rm) = encR4 1#2 op rd rs1 rs2 rs3 rm) :
    Selects xl (.word f.toWord) (decodeFma single double f) := by
  unfold decodeFma
  split
  case h_1 hf => exact .row (hs ..).1 ((hs ..).2.trans (encR4_fields hop hf))
  case h_2 hf => exact .row (hd ..).1 ((hd ..).2.trans (encR4_fields hop hf))
  case h_3 => exact .none

theorem selects_decodeOpFp (hop : f.opcode = 0x53#7) : Selects xl (.word f.toWord) (decodeOpFp xl f) := by
  unfold decodeOpFp decodeFsgnjS decodeFsgnjD decodeFminmaxS decodeFminmaxD decodeFcmpS decodeFcmpD decodeFcvtIntS
    decodeFcvtIntD decodeFcvtSInt decodeFcvtDInt
  split
  -- arithmetic: `rs2` an operand, then fixed
  case h_1 h7 | h_2 h7 | h_3 h7 | h_4 h7 | h_5 h7 | h_6 h7 | h_7 h7 | h_8 h7 =>
    exact .row rfl (encR_fields hop h7 rfl rfl rfl rfl)
  case h_9 h7 | h_10 h7 | h_15 h7 | h_16 h7 =>
    exact .rowIf (fun _ => rfl) fun h2 => encR_fields hop h7 rfl (eq_of_beq h2) rfl rfl
  -- sign injection and comparisons, minimum and maximum: by `funct3`
  case h_11 h7 | h_12 h7 | h_17 h7 | h_18 h7 =>
    split
    case h_1 h3 | h_2 h3 | h_3 h3 => exact .row rfl (encR_fields hop h7 h3 rfl rfl rfl)
    case h_4 => exact .none
  case h_13 h7 | h_14 h7 =>
    split
    case h_1 h3 | h_2 h3 => exact .row rfl (encR_fields hop h7 h3 rfl rfl rfl)
    case h_3 => exact .none
  -- conversions with integers: by `rs2`
  case h_19 h7 | h_20 h7 | h_21 h7 | h_22 h7 =>
    split
    case h_1 h2 | h_2 h2 => exact .row rfl (encR_fields hop h7 rfl h2 rfl rfl)
    case h_3 h2 | h_4 h2 => exact .row64 id (encR_fields hop h7 rfl h2 rfl rfl)
    case h_5 => exact .none
  -- moves and classification: by `rs2` and `funct3`
  case h_23 h7 =>
    split
    case h_1 h2 h3 | h_2 h2 h3 => exact .row rfl (encR_fields hop h7 h3 h2 rfl rfl)
    case h_3 => exact .none
  case h_24 h7 =>
    split
    case h_1 h2 h3 => exact .row64 id (encR_fields hop h7 h3 h2 rfl rfl)
    case h_2 h2 h3 => exact .row rfl (encR_fields hop h7 h3 h2 rfl rfl)
    case h_3 => exact .none
  case h_25 h7 =>
    split
    case h_1 h2 h3 => exact .row rfl (encR_fields hop h7 h3 h2 rfl rfl)
    case h_2 => exact .none
  case h_26 h7 =>
    split
    case h_1 h2 h3 => exact .row64 id (encR_fields hop h7 h3 h2 rfl rfl)
    case h_2 => exact .none
  case h_27 => exact .none

theorem selects_decodeBranch (hop : f.opcode = 0x63#7) : Selects xl (.word f.toWord) (decodeBranch f) := by
  unfold decodeBranch
  split
  case h_7 => exact .none
  all_goals exact .row rfl (encB_fields hop (by assumption))

theorem selects_decodeJalr (hop : f.opcode = 0x67#7) : Selects xl (.word f.toWord) (decodeJalr f) := by
  unfold decodeJalr
  split
  case h_1 h3 => exact .row rfl (encI_fields hop h3)
  case h_2 => exact .none

theorem selects_decodeSystem (hop : f.opcode = 0x73#7) : Selects xl (.word f.toWord) (decodeSystem f) := by
  unfold decodeSystem
  split
  case h_1 h3 =>
    split
    case h_1 h7 h2 h1 hd | h_2 h7 h2 h1 hd => exact .row rfl (encR_fields hop h7 h3 h2 h1 hd)
    case h_3 => exact .none
  case h_8 => exact .none
  all_goals exact .row rfl (encI_fields hop (by assumption))

theorem selects_decodeFields (xl : Xlen) (f : Fields) : Selects xl (.word f.toWord) (decodeFields xl f) := by
  unfold decodeFields
  split
  case h_1 hop => exact selects_decodeLoad hop
  case h_2 hop => exact selects_decodeLoadFp hop
  case h_3 hop => exact selects_decodeMiscMem hop
  case h_4 hop => exact selects_decodeOpImm hop
  case h_5 hop | h_11 hop => exact .row rfl (encU_fields hop)
  case h_6 hop => exact selects_decodeOpImm32 hop
  case h_7 hop => exact selects_decodeStore hop
  case h_8 hop => exact selects_decodeStoreFp hop
  case h_9 hop => exact selects_decodeAmo hop
  case h_10 hop => exact selects_decodeOp hop
  case h_12 hop => exact selects_decodeOp32 hop
  case h_13 hop | h_14 hop | h_15 hop | h_16 hop =>
    exact selects_decodeFma hop (fun _ _ _ _ _ => ⟨rfl, rfl⟩) fun _ _ _ _ _ => ⟨rfl, rfl⟩
  case h_17 hop => exact selects_decodeOpFp hop
  case h_18 hop => exact selects_decodeBranch hop
  case h_19 hop => exact selects_decodeJalr hop
  case h_20 hop => exact .row rfl (encJ_fields hop)
  case h_21 hop => exact selects_decodeSystem hop
  case h_22 => exact .none

end

/-! ### Halfwords, quadrant by quadrant -/

section
variable {xl : Xlen} {c : CFields}

theorem selects_decodeQuadrant0 (hop : c.op = 0#2) : Selects xl (.half c.toHalf) (decodeQuadrant0 xl c) := by
  unfold decodeQuadrant0
  split
  case h_1 h3 => exact .rowIf id fun _ => encode_cAddi4spn_fields hop h3
  case h_2 h3 | h_5 h3 => exact .row rfl (encCLd_fields hop h3)
  case h_3 h3 | h_6 h3 => exact .row rfl (encCLw_fields hop h3)
  case h_4 h3 | h_7 h3 =>
    cases xl with
    | rv32 => exact .row rfl (encCLw_fields hop h3)
    | rv64 => exact .row rfl (encCLd_fields hop h3)
  case h_8 => exact .none

theorem selects_decodeQuadrant1Alu (hop : c.op = 1#2) (h3 : c.funct3 = 4#3) :
    Selects xl (.half c.toHalf) (decodeQuadrant1Alu xl c) := by
  unfold decodeQuadrant1Alu
  split
  case h_1 hm | h_2 hm => exact .shift id (encCB6_fields hop h3 hm)
  case h_3 hm => exact .row rfl (encCB6_fields hop h3 hm)
  case h_4 hm =>
    split
    case h_1 h12 h65 | h_2 h12 h65 | h_3 h12 h65 | h_4 h12 h65 =>
      exact .row rfl (encC_fields hop h3 h12 hm rfl h65 rfl)
    case h_5 h12 h65 | h_6 h12 h65 => exact .row64 id (encC_fields hop h3 h12 hm rfl h65 rfl)
    case h_7 => exact .none
  case h_5 => exact .none

theorem selects_decodeQuadrant1 (hop : c.op = 1#2) : Selects xl (.half c.toHalf) (decodeQuadrant1 xl c) := by
  unfold decodeQuadrant1
  split
  case h_1 h3 =>
    split
    · next hd => exact .row rfl (encCI6_fields hop h3 hd)
    · next hd => exact .row (bne_iff_ne.mpr hd) (encCI6_fields hop h3 rfl)
  case h_2 h3 =>
    cases xl with
    | rv32 => exact .row rfl (encCJ_fields hop h3)
    | rv64 => exact .rowIf id fun _ => encCI6_fields hop h3 rfl
  case h_3 h3 => exact .row rfl (encCI6_fields hop h3 rfl)
  case h_4 h3 =>
    split
    · next hd => exact .rowIf id fun _ => encode_cAddi16sp_fields hop h3 hd
    · next hd =>
      exact .rowIf (fun hn => Bool.and_eq_true_iff.mpr ⟨bne_iff_ne.mpr hd, hn⟩) fun _ => encCI6_fields hop h3 rfl
  case h_5 h3 => exact selects_decodeQuadrant1Alu hop h3
  case h_6 h3 => exact .row rfl (encCJ_fields hop h3)
  case h_7 h3 | h_8 h3 => exact .row rfl (encCB_fields hop h3)
  case h_9 => exact .none

theorem selects_decodeQuadrant2Reg (hop : c.op = 2#2) (h3 : c.funct3 = 4#3) :
    Selects xl (.half c.toHalf) (decodeQuadrant2Reg c) := by
  unfold decodeQuadrant2Reg
  split
  case h_1 h12 =>
    split
    · next h2 => exact .rowIf id fun _ => encCI_fields hop h3 h12 rfl h2
    · next h2 => exact .row (bne_iff_ne.mpr h2) (encCI_fields hop h3 h12 rfl rfl)
  case h_2 h0 =>
    have h12 : c.b12 = 1#1 := (BitVec.eq_zero_or_eq_one c.b12).resolve_left h0
    split
    · next h2 =>
      split
      · next hd => exact .row rfl (encCI_fields hop h3 h12 hd h2)
      · next hd => exact .row (bne_iff_ne.mpr hd) (encCI_fields hop h3 h12 rfl h2)
    · next h2 => exact .row (bne_iff_ne.mpr h2) (encCI_fields hop h3 h12 rfl rfl)

theorem selects_decodeQuadrant2 (hop : c.op = 2#2) : Selects xl (.half c.toHalf) (decodeQuadrant2 xl c) := by
  unfold decodeQuadrant2
  split
  case h_1 h3 => exact .shift id (encCI6_fields hop h3 rfl)
  case h_2 h3 => exact .row rfl (encLdsp_fields hop h3)
  case h_3 h3 => exact .rowIf id fun _ => encLwsp_fields hop h3
  case h_4 h3 =>
    cases xl with
    | rv32 => exact .row rfl (encLwsp_fields hop h3)
    | rv64 => exact .rowIf id fun _ => encLdsp_fields hop h3
  case h_5 h3 => exact selects_decodeQuadrant2Reg hop h3
  case h_6 h3 => exact .row rfl (encSdsp_fields hop h3)
  case h_7 h3 => exact .row rfl (encSwsp_fields hop h3)
  case h_8 h3 =>
    cases xl with
    | rv32 => exact .row rfl (encSwsp_fields hop h3)
    | rv64 => exact .row rfl (encSdsp_fields hop h3)
  case h_9 => exact .none

theorem selects_decodeCFields (xl : Xlen) (c : CFields) : Selects xl (.half c.toHalf) (decodeCFields xl c) := by
  unfold decodeCFields
  split
  case h_1 hop => exact selects_decodeQuadrant0 hop
  case h_2 hop => exact selects_decodeQuadrant1 hop
  case h_3 hop => exact selects_decodeQuadrant2 hop
  case h_4 => exact .none

end

theorem selects_decodeRow (xl : Xlen) (p : Parcel) : Selects xl p (decodeRow xl p) := by
  cases p with
  | half h =>
    have hs := selects_decodeCFields xl (.ofHalf h)
    rw [CFields.toHalf_ofHalf] at hs
    exact hs
  | word w =>
    have hs := selects_decodeFields xl (.ofWord w)
    rw [Fields.toWord_ofWord] at hs
    exact hs

/-- Settles O2: the decode function of each opcode and of each quadrant selects such rows only. -/
theorem decodeThenEncode : Obligations.DecodeThenEncode := by
  unfold Obligations.DecodeThenEncode
  exact selects_decodeRow

end Sys2Proof
end

section
/-! Decoding the encoding of a well-formed instruction gives it back: for each format, what its fields select is what
decoding the format answers, and the fields of each row select that row (30_encoding.md R252 to R300; 49_c.md R1001 to
R1045). -/

namespace Sys2Proof

variable {xl : Xlen} {i : Instr}

/-! ### Rows under a constraint that holds -/

theorem Xlen.eq_rv64_of_is64 (h : xl.is64 = true) : xl = .rv64 := by
  cases xl with
  | rv32 => cases h
  | rv64 => rfl

theorem Xlen.eq_rv32_of_is32 (h : xl.is32 = true) : xl = .rv32 := by
  cases xl with
  | rv32 => rfl
  | rv64 => cases h

theorem only64_of_is64 (h : xl.is64 = true) : only64 xl i = some i := by
  rw [Xlen.eq_rv64_of_is64 h]
  rfl

theorem shiftRow_of_shamtOk {shamt : BitVec 6} (h : xl.shamtOk shamt = true) : shiftRow xl shamt i = some i := by
  cases xl with
  | rv32 => exact if_neg (by simpa [Xlen.shamtOk] using h)
  | rv64 => rfl

theorem rowIf_of_true {ok : Bool} (h : ok = true) : rowIf ok i = some i := if_pos h

/-! ### Words, format by format

In each, a row is decoded from the encoding if it is selected by all fields that have the format's fixed ones and read
as its immediate. -/

section
variable {op : BitVec 7} {f3 : BitVec 3} {rd rs1 rs2 : BitVec 5}

theorem decodeRow_encR (f7 : BitVec 7) (f3 : BitVec 3) (op : BitVec 7) (rd rs1 rs2 : BitVec 5) :
    decodeRow xl (encR f7 f3 op rd rs1 rs2) = decodeFields xl ⟨f7, rs2, rs1, f3, rd, op⟩ :=
  congrArg (decodeFields xl) (Fields.ofWord_toWord _)

theorem decodeRow_encI {imm : BitVec 12}
    (h : ∀ f7 rs2, Fields.immI ⟨f7, rs2, rs1, f3, rd, op⟩ = imm →
      decodeFields xl ⟨f7, rs2, rs1, f3, rd, op⟩ = some i) :
    decodeRow xl (encI f3 op rd rs1 imm) = some i :=
  (decodeRow_encR ..).trans (h _ _ (by simp (disch := decide) only [Fields.immI, slice_rules]))

theorem decodeRow_encS {imm : BitVec 12}
    (h : ∀ f7 rd, Fields.immS ⟨f7, rs2, rs1, f3, rd, op⟩ = imm →
      decodeFields xl ⟨f7, rs2, rs1, f3, rd, op⟩ = some i) :
    decodeRow xl (encS f3 op rs1 rs2 imm) = some i :=
  (decodeRow_encR ..).trans (h _ _ (by simp (disch := decide) only [Fields.immS, slice_rules]))

theorem decodeRow_encB {off : BitVec 12}
    (h : ∀ f7 rd, Fields.offB ⟨f7, rs2, rs1, f3, rd, op⟩ = off →
      decodeFields xl ⟨f7, rs2, rs1, f3, rd, op⟩ = some i) :
    decodeRow xl (encB f3 op rs1 rs2 off) = some i :=
  (decodeRow_encR ..).trans
    (h _ _ (by simp (disch := decide) only [Fields.offB, slice_rules, Nat.reduceSub, Nat.add_zero]))

theorem decodeRow_encU {imm : BitVec 20}
    (h : ∀ f7 rs2 rs1 f3, Fields.immU ⟨f7, rs2, rs1, f3, rd, op⟩ = imm →
      decodeFields xl ⟨f7, rs2, rs1, f3, rd, op⟩ = some i) :
    decodeRow xl (encU op rd imm) = some i :=
  (decodeRow_encR ..).trans (h _ _ _ _ (by simp (disch := decide) only [Fields.immU, slice_rules]))

theorem decodeRow_encJ {off : BitVec 20}
    (h : ∀ f7 rs2 rs1 f3, Fields.offJ ⟨f7, rs2, rs1, f3, rd, op⟩ = off →
      decodeFields xl ⟨f7, rs2, rs1, f3, rd, op⟩ = some i) :
    decodeRow xl (encJ op rd off) = some i :=
  (decodeRow_encR ..).trans
    (h _ _ _ _ (by simp (disch := decide) only [Fields.offJ, slice_rules, Nat.reduceSub, Nat.add_zero]))

theorem decodeRow_encShift {f6 shamt : BitVec 6}
    (h : ∀ f : Fields, f.funct3 = f3 → f.funct6 = f6 → f.rd = rd → f.rs1 = rs1 → f.shamt = shamt →
      decodeOpImm xl f = some i) :
    decodeRow xl (encShift f6 f3 0x13#7 rd rs1 shamt) = some i :=
  (decodeRow_encR ..).trans (h _ rfl
    (by simp (disch := decide) only [Fields.funct6, slice_rules, Nat.reduceSub]) rfl rfl
    (by simp (disch := decide) only [Fields.shamt, slice_rules]))

theorem decodeRow_encAmo {f5 : BitVec 5} {aq rl : Bool}
    (h : ∀ f : Fields, f.funct3 = f3 → f.funct5 = f5 → f.rd = rd → f.rs1 = rs1 → f.rs2 = rs2 → f.aq = aq →
      f.rl = rl → decodeAmo xl f = some i) :
    decodeRow xl (encAmo f5 f3 rd rs1 rs2 aq rl) = some i := by
  refine (decodeRow_encR ..).trans (h _ rfl ?_ rfl rfl rfl ?_ ?_)
  · simp (disch := decide) only [Fields.funct5, slice_rules, Nat.reduceSub]
  · rw [← BitVec.ofBool_eq_iff_eq, Fields.aq, ofBool_getLsbD]
    simp (disch := decide) only [slice_rules, Nat.reduceSub]
  · rw [← BitVec.ofBool_eq_iff_eq, Fields.rl, ofBool_getLsbD]
    simp (disch := decide) only [slice_rules]

theorem decodeFma_single {single double : FReg → FReg → FReg → FReg → BitVec 3 → Instr} {rs3 : BitVec 5} :
    decodeFma single double ⟨rs3 ++ 0#2, rs2, rs1, f3, rd, op⟩ = some (single rd rs1 rs2 rs3 f3) := by
  simp (disch := decide) only [decodeFma, Fields.fmt, Fields.rs3, slice_rules, Nat.reduceSub]

theorem decodeFma_double {single double : FReg → FReg → FReg → FReg → BitVec 3 → Instr} {rs3 : BitVec 5} :
    decodeFma single double ⟨rs3 ++ 1#2, rs2, rs1, f3, rd, op⟩ = some (double rd rs1 rs2 rs3 f3) := by
  simp (disch := decide) only [decodeFma, Fields.fmt, Fields.rs3, slice_rules, Nat.reduceSub]

theorem decodeRow_encFence {fm pred succ : BitVec 4} :
    decodeRow xl (encR (fm ++ pred.extractLsb' 1 3) 0#3 0x0f#7 rd rs1 (pred.extractLsb' 0 1 ++ succ)) =
      some (.fence fm pred succ rs1 rd) := by
  have hf : ∀ f7 rs2, decodeFields xl ⟨f7, rs2, rs1, 0#3, rd, 0x0f#7⟩ =
      some (.fence (Fields.fm ⟨f7, rs2, rs1, 0#3, rd, 0x0f#7⟩) (Fields.pred ⟨f7, rs2, rs1, 0#3, rd, 0x0f#7⟩)
        (Fields.succ ⟨f7, rs2, rs1, 0#3, rd, 0x0f#7⟩) rs1 rd) := fun _ _ => rfl
  rw [decodeRow_encR, hf]
  simp (disch := decide) only [Fields.fm, Fields.pred, Fields.succ, slice_rules, Nat.reduceSub, Nat.add_zero]

end

/-! ### Halfwords, format by format -/

section
variable {op : BitVec 2} {f3 : BitVec 3}

theorem decodeRow_encC (op : BitVec 2) (f3 : BitVec 3) (b12 : BitVec 1) (mid : BitVec 2) (r1 : BitVec 3)
    (b65 : BitVec 2) (r2 : BitVec 3) :
    decodeRow xl (encC op f3 b12 mid r1 b65 r2) = decodeCFields xl ⟨f3, b12, mid, r1, b65, r2, op⟩ :=
  congrArg (decodeCFields xl) (CFields.ofHalf_toHalf _)

theorem decodeRow_encCI {b12 : BitVec 1} {rd low5 : BitVec 5}
    (h : ∀ mid r1 b65 r2, CFields.rd ⟨f3, b12, mid, r1, b65, r2, op⟩ = rd →
      CFields.rs2 ⟨f3, b12, mid, r1, b65, r2, op⟩ = low5 →
      decodeCFields xl ⟨f3, b12, mid, r1, b65, r2, op⟩ = some i) :
    decodeRow xl (encCI op f3 b12 rd low5) = some i :=
  (decodeRow_encC ..).trans (h _ _ _ _ (by simp (disch := decide) only [CFields.rd, slice_rules])
    (by simp (disch := decide) only [CFields.rs2, slice_rules]))

theorem decodeRow_encCI6 {rd : BitVec 5} {imm : BitVec 6}
    (h : ∀ b12 mid r1 b65 r2, CFields.rd ⟨f3, b12, mid, r1, b65, r2, op⟩ = rd →
      CFields.imm6 ⟨f3, b12, mid, r1, b65, r2, op⟩ = imm →
      decodeCFields xl ⟨f3, b12, mid, r1, b65, r2, op⟩ = some i) :
    decodeRow xl (encCI6 op f3 rd imm) = some i :=
  (decodeRow_encC ..).trans (h _ _ _ _ _ (by simp (disch := decide) only [CFields.rd, slice_rules])
    (by simp (disch := decide) only [CFields.imm6, slice_rules, Nat.add_zero]))

theorem decodeRow_encCB6 {mid : BitVec 2} {r1 : CReg} {imm : BitVec 6}
    (h : ∀ b12 b65 r2, CFields.imm6 ⟨4#3, b12, mid, r1, b65, r2, 1#2⟩ = imm →
      decodeCFields xl ⟨4#3, b12, mid, r1, b65, r2, 1#2⟩ = some i) :
    decodeRow xl (encCB6 mid r1 imm) = some i :=
  (decodeRow_encC ..).trans (h _ _ _ (by simp (disch := decide) only [CFields.imm6, slice_rules]))

theorem decodeRow_encCLd {r1 r2 : CReg} {uimm : BitVec 5}
    (h : ∀ b12 mid b65, CFields.uimmD ⟨f3, b12, mid, r1, b65, r2, 0#2⟩ = uimm →
      decodeCFields xl ⟨f3, b12, mid, r1, b65, r2, 0#2⟩ = some i) :
    decodeRow xl (encCLd f3 r1 r2 uimm) = some i :=
  (decodeRow_encC ..).trans (h _ _ _ (by simp (disch := decide) only [CFields.uimmD, slice_rules]))

theorem decodeRow_encCLw {r1 r2 : CReg} {uimm : BitVec 5}
    (h : ∀ b12 mid b65, CFields.uimmW ⟨f3, b12, mid, r1, b65, r2, 0#2⟩ = uimm →
      decodeCFields xl ⟨f3, b12, mid, r1, b65, r2, 0#2⟩ = some i) :
    decodeRow xl (encCLw f3 r1 r2 uimm) = some i :=
  (decodeRow_encC ..).trans
    (h _ _ _ (by simp (disch := decide) only [CFields.uimmW, slice_rules, Nat.reduceSub, Nat.add_zero]))

theorem decodeRow_encCJ {off : BitVec 11}
    (h : ∀ b12 mid r1 b65 r2, CFields.offJ ⟨f3, b12, mid, r1, b65, r2, 1#2⟩ = off →
      decodeCFields xl ⟨f3, b12, mid, r1, b65, r2, 1#2⟩ = some i) :
    decodeRow xl (encCJ f3 off) = some i :=
  (decodeRow_encC ..).trans
    (h _ _ _ _ _ (by simp (disch := decide) only [CFields.offJ, slice_rules, Nat.reduceSub, Nat.add_zero]))

theorem decodeRow_encCB {r1 : CReg} {off : BitVec 8}
    (h : ∀ b12 mid b65 r2, CFields.offB ⟨f3, b12, mid, r1, b65, r2, 1#2⟩ = off →
      decodeCFields xl ⟨f3, b12, mid, r1, b65, r2, 1#2⟩ = some i) :
    decodeRow xl (encCB f3 r1 off) = some i :=
  (decodeRow_encC ..).trans
    (h _ _ _ _ (by simp (disch := decide) only [CFields.offB, slice_rules, Nat.reduceSub, Nat.add_zero]))

theorem decodeRow_encLdsp {rd : BitVec 5} {uimm : BitVec 6}
    (h : ∀ b12 mid r1 b65 r2, CFields.rd ⟨f3, b12, mid, r1, b65, r2, 2#2⟩ = rd →
      CFields.uimmLdsp ⟨f3, b12, mid, r1, b65, r2, 2#2⟩ = uimm →
      decodeCFields xl ⟨f3, b12, mid, r1, b65, r2, 2#2⟩ = some i) :
    decodeRow xl (encLdsp f3 rd uimm) = some i :=
  (decodeRow_encC ..).trans (h _ _ _ _ _ (by simp (disch := decide) only [CFields.rd, slice_rules])
    (by simp (disch := decide) only [CFields.uimmLdsp, slice_rules, Nat.reduceSub, Nat.add_zero]))

theorem decodeRow_encLwsp {rd : BitVec 5} {uimm : BitVec 6}
    (h : ∀ b12 mid r1 b65 r2, CFields.rd ⟨f3, b12, mid, r1, b65, r2, 2#2⟩ = rd →
      CFields.uimmLwsp ⟨f3, b12, mid, r1, b65, r2, 2#2⟩ = uimm →
      decodeCFields xl ⟨f3, b12, mid, r1, b65, r2, 2#2⟩ = some i) :
    decodeRow xl (encLwsp f3 rd uimm) = some i :=
  (decodeRow_encC ..).trans (h _ _ _ _ _ (by simp (disch := decide) only [CFields.rd, slice_rules])
    (by simp (disch := decide) only [CFields.uimmLwsp, slice_rules, Nat.reduceSub, Nat.zero_add]))

theorem decodeRow_encSdsp {rs2 : BitVec 5} {uimm : BitVec 6}
    (h : ∀ b12 mid r1 b65 r2, CFields.rs2 ⟨f3, b12, mid, r1, b65, r2, 2#2⟩ = rs2 →
      CFields.uimmSdsp ⟨f3, b12, mid, r1, b65, r2, 2#2⟩ = uimm →
      decodeCFields xl ⟨f3, b12, mid, r1, b65, r2, 2#2⟩ = some i) :
    decodeRow xl (encSdsp f3 rs2 uimm) = some i :=
  (decodeRow_encC ..).trans (h _ _ _ _ _ (by simp (disch := decide) only [CFields.rs2, slice_rules])
    (by simp (disch := decide) only [CFields.uimmSdsp, slice_rules]))

theorem decodeRow_encSwsp {rs2 : BitVec 5} {uimm : BitVec 6}
    (h : ∀ b12 mid r1 b65 r2, CFields.rs2 ⟨f3, b12, mid, r1, b65, r2, 2#2⟩ = rs2 →
      CFields.uimmSwsp ⟨f3, b12, mid, r1, b65, r2, 2#2⟩ = uimm →
      decodeCFields xl ⟨f3, b12, mid, r1, b65, r2, 2#2⟩ = some i) :
    decodeRow xl (encSwsp f3 rs2 uimm) = some i :=
  (decodeRow_encC ..).trans (h _ _ _ _ _ (by simp (disch := decide) only [CFields.rs2, slice_rules])
    (by simp (disch := decide) only [CFields.uimmSwsp, slice_rules, Nat.reduceSub, Nat.add_zero]))

theorem decodeRow_encode_cAddi4spn {rdc : CReg} {nzuimm : BitVec 8}
    (h : ∀ b12 mid r1 b65, CFields.nzuimm ⟨0#3, b12, mid, r1, b65, rdc, 0#2⟩ = nzuimm →
      decodeCFields xl ⟨0#3, b12, mid, r1, b65, rdc, 0#2⟩ = some i) :
    decodeRow xl (encode (.cAddi4spn rdc nzuimm)) = some i :=
  (decodeRow_encC ..).trans
    (h _ _ _ _ (by simp (disch := decide) only [CFields.nzuimm, slice_rules, Nat.reduceSub, Nat.add_zero]))

theorem decodeRow_encode_cAddi16sp {nzimm : BitVec 6}
    (h : ∀ b12 mid r1 b65 r2, CFields.rd ⟨3#3, b12, mid, r1, b65, r2, 1#2⟩ = 2#5 →
      CFields.nzimm16 ⟨3#3, b12, mid, r1, b65, r2, 1#2⟩ = nzimm →
      decodeCFields xl ⟨3#3, b12, mid, r1, b65, r2, 1#2⟩ = some i) :
    decodeRow xl (encode (.cAddi16sp nzimm)) = some i :=
  (decodeRow_encC ..).trans (h _ _ _ _ _ (by simp (disch := decide) only [CFields.rd, slice_rules])
    (by simp (disch := decide) only [CFields.nzimm16, slice_rules, Nat.reduceSub, Nat.add_zero]))

end

/-- Settles O1: the fields of each row, put together and cut again, select that row. The cases are grouped by format,
and in a format by the constraint of the row. -/
theorem encodeThenDecode : Obligations.EncodeThenDecode := by
  unfold Obligations.EncodeThenDecode
  intro xl i h
  cases i with
  | lui | auipc => exact decodeRow_encU (by rintro _ _ _ _ rfl; rfl)
  | jal => exact decodeRow_encJ (by rintro _ _ _ _ rfl; rfl)
  | addi | slti | sltiu | xori | ori | andi | jalr | lb | lh | lw | lbu | lhu | fenceI | csrrw | csrrs | csrrc | csrrwi
  | csrrsi | csrrci | flw | fld => exact decodeRow_encI (by rintro _ _ rfl; rfl)
  | addiw | ld | lwu => exact decodeRow_encI (by rintro _ _ rfl; exact only64_of_is64 h)
  | sb | sh | sw | fsw | fsd => exact decodeRow_encS (by rintro _ _ rfl; rfl)
  | sd => exact decodeRow_encS (by rintro _ _ rfl; exact only64_of_is64 h)
  | beq | bne | blt | bge | bltu | bgeu => exact decodeRow_encB (by rintro _ _ rfl; rfl)
  | slli | srli | srai =>
    refine decodeRow_encShift fun f h3 h6 hd h1 hs => ?_
    rw [decodeOpImm, h3, h6, hd, h1, hs]
    exact shiftRow_of_shamtOk h
  | add | sub | sll | slt | sltu | xor | srl | sra | or | and | mul | mulh | mulhsu | mulhu | div | divu | rem | remu
  | ecall | ebreak
  | faddS | fsubS | fmulS | fdivS | fsqrtS | fsgnjS | fsgnjnS | fsgnjxS | fminS | fmaxS | fleS | fltS | feqS | fclassS
  | fcvtWS | fcvtSW | fcvtWuS | fcvtSWu | fmvXW | fmvWX | faddD | fsubD | fmulD | fdivD | fsqrtD | fsgnjD | fsgnjnD
  | fsgnjxD | fminD | fmaxD | fleD | fltD | feqD | fclassD | fcvtWD | fcvtDW | fcvtWuD | fcvtDWu | fcvtSD | fcvtDS =>
    exact decodeRow_encR ..
  | slliw | srliw | sraiw | addw | subw | sllw | srlw | sraw | mulw | divw | divuw | remw | remuw
  | fcvtLS | fcvtSL | fcvtLuS | fcvtSLu | fcvtLD | fcvtDL | fcvtLuD | fcvtDLu | fmvXD | fmvDX =>
    exact (decodeRow_encR ..).trans (only64_of_is64 h)
  | fence => exact decodeRow_encFence
  | lrW | scW | amoswapW | amoaddW | amoxorW | amoandW | amoorW | amominW | amomaxW | amominuW | amomaxuW =>
    refine decodeRow_encAmo fun f h3 h5 hd h1 h2 ha hr => ?_
    rw [decodeAmo, h3, h5, hd, h1, h2, ha, hr]
    rfl
  | lrD | scD | amoswapD | amoaddD | amoxorD | amoandD | amoorD | amominD | amomaxD | amominuD | amomaxuD =>
    refine decodeRow_encAmo fun f h3 h5 hd h1 h2 ha hr => ?_
    rw [decodeAmo, h3, h5, hd, h1, h2, ha, hr]
    exact only64_of_is64 h
  | fmaddS | fmsubS | fnmsubS | fnmaddS => exact (decodeRow_encR ..).trans decodeFma_single
  | fmaddD | fmsubD | fnmsubD | fnmaddD => exact (decodeRow_encR ..).trans decodeFma_double
  | cAddi4spn => exact decodeRow_encode_cAddi4spn (by rintro _ _ _ _ rfl; exact rowIf_of_true h)
  | cFld | cFsd => exact decodeRow_encCLd (by rintro _ _ _ rfl; rfl)
  | cLw | cSw => exact decodeRow_encCLw (by rintro _ _ _ rfl; rfl)
  | cFlw | cFsw =>
    obtain rfl := Xlen.eq_rv32_of_is32 h
    exact decodeRow_encCLw (by rintro _ _ _ rfl; rfl)
  | cLd | cSd =>
    obtain rfl := Xlen.eq_rv64_of_is64 h
    exact decodeRow_encCLd (by rintro _ _ _ rfl; rfl)
  | cNop => exact decodeRow_encCI6 (by rintro _ _ _ _ _ hd rfl; exact if_pos hd)
  | cAddi => exact decodeRow_encCI6 (by rintro _ _ _ _ _ rfl rfl; exact if_neg (bne_iff_ne.mp h))
  | cLi => exact decodeRow_encCI6 (by rintro _ _ _ _ _ rfl rfl; rfl)
  | cJal =>
    obtain rfl := Xlen.eq_rv32_of_is32 h
    exact decodeRow_encCJ (by rintro _ _ _ _ _ rfl; rfl)
  | cAddiw =>
    obtain ⟨hx, hd⟩ := Bool.and_eq_true_iff.mp h
    obtain rfl := Xlen.eq_rv64_of_is64 hx
    exact decodeRow_encCI6 (by rintro _ _ _ _ _ rfl rfl; exact rowIf_of_true hd)
  | cAddi16sp =>
    refine decodeRow_encode_cAddi16sp ?_
    rintro _ _ _ _ _ hd rfl
    exact (if_pos hd).trans (rowIf_of_true h)
  | cLui =>
    obtain ⟨hd, hi⟩ := Bool.and_eq_true_iff.mp h
    refine decodeRow_encCI6 ?_
    rintro _ _ _ _ _ rfl rfl
    exact (if_neg (bne_iff_ne.mp hd)).trans (rowIf_of_true hi)
  | cSrli | cSrai => exact decodeRow_encCB6 (by rintro _ _ _ rfl; exact shiftRow_of_shamtOk h)
  | cAndi => exact decodeRow_encCB6 (by rintro _ _ _ rfl; rfl)
  | cSub | cXor | cOr | cAnd => exact decodeRow_encC ..
  | cSubw | cAddw => exact (decodeRow_encC ..).trans (only64_of_is64 h)
  | cJ => exact decodeRow_encCJ (by rintro _ _ _ _ _ rfl; rfl)
  | cBeqz | cBnez => exact decodeRow_encCB (by rintro _ _ _ _ rfl; rfl)
  | cSlli => exact decodeRow_encCI6 (by rintro _ _ _ _ _ rfl rfl; exact shiftRow_of_shamtOk h)
  | cFldsp => exact decodeRow_encLdsp (by rintro _ _ _ _ _ rfl rfl; rfl)
  | cLwsp => exact decodeRow_encLwsp (by rintro _ _ _ _ _ rfl rfl; exact rowIf_of_true h)
  | cFlwsp =>
    obtain rfl := Xlen.eq_rv32_of_is32 h
    exact decodeRow_encLwsp (by rintro _ _ _ _ _ rfl rfl; rfl)
  | cLdsp =>
    obtain ⟨hx, hd⟩ := Bool.and_eq_true_iff.mp h
    obtain rfl := Xlen.eq_rv64_of_is64 hx
    exact decodeRow_encLdsp (by rintro _ _ _ _ _ rfl rfl; exact rowIf_of_true hd)
  | cJr =>
    refine decodeRow_encCI ?_
    rintro _ _ _ _ rfl h2
    exact (if_pos h2).trans (rowIf_of_true h)
  | cMv | cAdd => exact decodeRow_encCI (by rintro _ _ _ _ rfl rfl; exact if_neg (bne_iff_ne.mp h))
  | cEbreak => rfl
  | cJalr =>
    refine decodeRow_encCI ?_
    rintro _ _ _ _ rfl h2
    exact (if_pos h2).trans (if_neg (bne_iff_ne.mp h))
  | cFsdsp => exact decodeRow_encSdsp (by rintro _ _ _ _ _ rfl rfl; rfl)
  | cSwsp => exact decodeRow_encSwsp (by rintro _ _ _ _ _ rfl rfl; rfl)
  | cFswsp =>
    obtain rfl := Xlen.eq_rv32_of_is32 h
    exact decodeRow_encSwsp (by rintro _ _ _ _ _ rfl rfl; rfl)
  | cSdsp =>
    obtain rfl := Xlen.eq_rv64_of_is64 h
    exact decodeRow_encSdsp (by rintro _ _ _ _ _ rfl rfl; rfl)

end Sys2Proof
end

section
/-! What a fetch answers (30_encoding.md R250, R251; 40_cycle.md R352, R353; 20_memory.md R155, R157). -/

namespace Sys2Proof.Machine

variable {s : State}

theorem State.withFetch16_of_refuses {a : Word} {kind : TrapKind} (h : s.Refuses .fetch a.toNat 2 kind)
    (k : BitVec 16 → Fetched) : s.withFetch16 a k = .fault kind a := by
  rw [State.withFetch16, refuses_iff.mpr h]

/-- The address of the second halfword, modulo 2^XLEN. -/
theorem State.nextHalf_toNat (s : State) :
    (s.cfg.xlen.narrow (s.readPc + 2)).toNat = (s.readPc.toNat + 2) % s.size :=
  s.cfg.xlen.narrow_add_toNat _ _

theorem State.fetch_half (h : s.Accepts .fetch s.readPc.toNat 2) (hw : s.bytesAt s.readPc.toNat 2 % 4 ≠ 3) :
    s.fetch = .ok (.half (BitVec.ofNat 16 (s.bytesAt s.readPc.toNat 2))) := by
  rw [State.fetch, State.withFetch16_of_accepts h, isWordStart_ofNat, if_neg (by simpa using hw)]

theorem State.fetch_refused_first {kind : TrapKind} (h : s.Refuses .fetch s.readPc.toNat 2 kind) :
    s.fetch = .fault kind s.readPc := State.withFetch16_of_refuses h _

theorem State.fetch_refused_second {kind : TrapKind} (h : s.Accepts .fetch s.readPc.toNat 2)
    (hw : s.bytesAt s.readPc.toNat 2 % 4 = 3) (hr : s.Refuses .fetch ((s.readPc.toNat + 2) % s.size) 2 kind) :
    s.fetch = .fault kind (BitVec.ofNat 64 ((s.readPc.toNat + 2) % s.size)) := by
  rw [← s.nextHalf_toNat] at hr ⊢
  rw [State.fetch, State.withFetch16_of_accepts h, isWordStart_ofNat, if_pos (decide_eq_true hw),
    State.withFetch16_of_refuses hr, BitVec.ofNat_toNat, BitVec.setWidth_eq]

/-- Settles O8: each of the four cases fixes what the first request answers, whether it starts a word, and what the
second request answers. -/
theorem fetchReadsTheInstruction : Obligations.FetchReadsTheInstruction := by
  unfold Obligations.FetchReadsTheInstruction
  exact fun _ => ⟨State.fetch_half, State.fetch_word, fun _ => State.fetch_refused_first,
    fun _ => State.fetch_refused_second⟩

end Sys2Proof.Machine
end

section
/-! One iteration of the `simulate` loop (40_cycle.md R351 to R360, R364, R365): what its front answers in each case,
and that the instruction it runs is the one the bytes at pc decode to. -/

namespace Sys2Proof.Machine

variable {s t : State} {i : Instr} {p : Parcel}

/-! ### A step is its front -/

theorem step_of_front_done (h : s.front = .done t) : step s = .next t := by
  rw [step, h]

theorem step_of_front_execute (h : s.front = .execute i) : step s = exec i s := by
  rw [step, h]

/-! ### The boundary tests -/

theorem State.front_outside (hr : s.run ≠ .running) : s.front = .done s := by
  unfold State.front
  cases h : s.run with
  | idle | returned r => rfl
  | running => exact absurd h hr

theorem State.front_stopped (hr : s.run = .running) (hs : s.stopped = true) :
    s.front = .done { s with run := .returned .stopped } := by
  rw [State.front, hr]
  exact if_pos hs

theorem State.front_spent (hr : s.run = .running) (hs : s.stopped = false) (hb : s.budget.toNat ≤ s.instret.toNat) :
    s.front = .done { s with run := .returned .instructionLimit } := by
  rw [State.front, hr]
  exact (if_neg (by simp [hs])).trans (if_pos hb)

theorem State.front_inside (hr : s.run = .running) (hs : s.stopped = false) (hb : s.instret.toNat < s.budget.toNat) :
    s.front = s.stepFront := by
  rw [State.front, hr]
  exact (if_neg (by simp [hs])).trans (if_neg (Nat.not_le_of_lt hb))

/-- Settles O7: each clause is what the front answers under its condition. -/
theorem boundaryResults : Obligations.BoundaryResults := by
  unfold Obligations.BoundaryResults
  refine fun s => ⟨fun hr hs => ?_, fun hr hs hb => ?_, fun hr => ?_, fun r hr => ?_, fun _ => rfl, ?_⟩
  · exact step_of_front_done (State.front_stopped hr hs)
  · exact step_of_front_done (State.front_spent hr hs hb)
  · exact step_of_front_done (State.front_outside (by simp [hr]))
  · exact step_of_front_done (State.front_outside (by simp [hr]))
  · exact step_of_front_done (State.front_spent rfl rfl (Nat.zero_le _))

/-! ### Alignment, fetch and decode -/

theorem State.stepFront_misaligned (ha : s.readPc.toNat % instrAlign s.cfg ≠ 0) :
    s.stepFront = .done (s.trap .misalignedFault s.readPc) := if_neg ha

theorem State.stepFront_fault {kind : TrapKind} {a : Word} (ha : s.readPc.toNat % instrAlign s.cfg = 0)
    (hf : s.fetch = .fault kind a) : s.stepFront = .done (s.trap kind a) := by
  rw [State.stepFront, if_pos ha, hf]

theorem State.stepFront_fetched (ha : s.readPc.toNat % instrAlign s.cfg = 0) (hf : s.fetch = .ok p) :
    s.stepFront = s.decodeFront p := by
  rw [State.stepFront, if_pos ha, hf]

theorem State.decodeFront_ok (hd : decode s.cfg p = .ok i) : s.decodeFront p = .execute i := by
  rw [State.decodeFront, hd]

theorem State.decodeFront_illegal (hd : decode s.cfg p = .illegal) :
    s.decodeFront p = .done (s.trap .illegalInstruction p.bits) := by
  rw [State.decodeFront, hd]

theorem State.decodeFront_unimplemented (hd : decode s.cfg p = .unimplemented) :
    s.decodeFront p = .done (s.trap .unimplementedInstruction p.bits) := by
  rw [State.decodeFront, hd]

/-- Settles O9: past the boundary tests the front is alignment, then fetch, then decode, and each failure is a trap that
sets the field `run` alone. -/
theorem stepChecksInOrder : Obligations.StepChecksInOrder := by
  unfold Obligations.StepChecksInOrder
  intro s hr hs hb
  have traps : ∀ {kind : TrapKind} {v : Word}, s.stepFront = .done (s.trap kind v) → step s = .next (s.trap kind v) :=
    fun h => step_of_front_done ((State.front_inside hr hs hb).trans h)
  refine ⟨fun ha => ?_, fun ha => ⟨fun kind a hf => ?_, fun p hf hd => ?_, fun p hf hd => ?_⟩⟩
  · exact traps (State.stepFront_misaligned ha)
  · exact traps (State.stepFront_fault ha hf)
  · exact traps ((State.stepFront_fetched ha hf).trans (State.decodeFront_illegal hd))
  · exact traps ((State.stepFront_fetched ha hf).trans (State.decodeFront_unimplemented hd))

/-! ### The bytes at pc and the parcel fetched -/

/-- The `n` bytes of memory from address `a` on, lowest first. -/
def State.bytesFrom (s : State) (a n : Nat) : List Byte := (List.range n).map fun k => s.mem.byte ((a + k) % s.size)

theorem State.bytesFrom_succ (s : State) (a n : Nat) :
    s.bytesFrom a (n + 1) = s.mem.byte (a % s.size) :: s.bytesFrom (a + 1) n := by
  simp only [State.bytesFrom, List.range_succ_eq_map, List.map_cons, List.map_map, Function.comp_def, Nat.add_zero,
    Nat.succ_eq_add_one, Nat.add_right_comm a, ← Nat.add_assoc]

/-- Two bytes of memory put together are their little-endian value (20_memory.md R155). -/
theorem State.append_bytes (s : State) (a : Nat) :
    s.mem.byte ((a + 1) % s.size) ++ s.mem.byte (a % s.size) = BitVec.ofNat 16 (s.bytesAt a 2) := by
  have hlow : (s.mem.byte (a % s.size)).toNat < 2 ^ 8 := (s.mem.byte (a % s.size)).isLt
  apply BitVec.eq_of_toNat_eq
  rw [BitVec.toNat_append, BitVec.toNat_ofNat, ← Nat.shiftLeft_add_eq_or_of_lt hlow, Nat.shiftLeft_eq,
    Nat.mod_eq_of_lt (show s.bytesAt a 2 < 2 ^ (8 + 8) from bytesAt_lt s a 2)]
  simp [State.bytesAt]
  omega

/-- Where the memory accepts a fetch of the bytes at pc, the parcel they begin with is the one fetched. -/
theorem State.fetch_of_parcelOfBytes {n : Nat} {rest : List Byte} (ha : s.Accepts .fetch s.readPc.toNat n)
    (h : parcelOfBytes (s.bytesFrom s.readPc.toNat n) = some (p, rest)) : s.fetch = .ok p := by
  match n with
  | 0 | 1 => cases h
  | n + 2 =>
    rw [State.bytesFrom_succ, State.bytesFrom_succ] at h
    by_cases hw : s.bytesAt s.readPc.toNat 2 % 4 = 3
    · match n with
      | 0 | 1 => simp [parcelOfBytes, State.bytesFrom, s.append_bytes, isWordStart_ofNat, hw] at h
      | n + 2 =>
        have hvalue : s.bytesAt s.readPc.toNat 4 =
            s.bytesAt s.readPc.toNat 2 + s.bytesAt (s.readPc.toNat + 2) 2 * 2 ^ 16 := s.bytesAt_add _ 2 2
        rw [State.bytesFrom_succ, State.bytesFrom_succ, parcelOfBytes, s.append_bytes, s.append_bytes,
          isWordStart_ofNat, if_pos (decide_eq_true hw), joinHalves_ofNat (bytesAt_lt s _ 2), ← hvalue] at h
        cases h
        exact State.fetch_word (fun k hk => ha k (by omega)) hw
    · unfold parcelOfBytes at h
      simp only [s.append_bytes, isWordStart_ofNat, hw, decide_false, Bool.false_eq_true, if_false] at h
      cases h
      exact State.fetch_half (fun k hk => ha k (by omega)) hw

theorem decode_of_decodeBytes {cfg : Config} {bs : List Byte} (h : decodeBytes cfg bs = .ok i) :
    ∃ p rest, parcelOfBytes bs = some (p, rest) ∧ decode cfg p = .ok i := by
  unfold decodeBytes at h
  split at h
  · cases h
  · next p rest hp => exact ⟨p, rest, hp, h⟩

/-- Settles O6: inside the run the front fetches the parcel the bytes at pc begin with, and hands on what it decodes
to. -/
theorem stepRunsDecoded : Obligations.StepRunsDecoded := by
  unfold Obligations.StepRunsDecoded
  intro s i n hr hs hb ha hi hacc
  obtain ⟨p, rest, hp, hd⟩ := decode_of_decodeBytes hi
  have hf : s.fetch = .ok p := State.fetch_of_parcelOfBytes hacc hp
  exact step_of_front_execute <|
    (State.front_inside hr hs hb).trans <| (State.stepFront_fetched ha hf).trans (State.decodeFront_ok hd)

end Sys2Proof.Machine
end

section
/-! Every instruction ends in a next state, which either retires it or records its trap (40_cycle.md R361 to R363,
R373). -/

namespace Sys2Proof.Machine

theorem exec_next (i : Instr) (s : State) : ∃ t, exec i s = .next t := by
  have hs : Shape i s (exec i s) := exec_shape i s
  generalize exec i s = o at hs ⊢
  cases hs <;> exact ⟨_, rfl⟩

/-- Settles O10: every shape of an instruction is a next state, and a step is its front or an instruction. -/
theorem stepIsTotal : Obligations.StepIsTotal := by
  unfold Obligations.StepIsTotal
  refine ⟨fun s => ?_, exec_next⟩
  rcases step_cases s with ⟨t, -, h⟩ | ⟨i, -, h⟩
  · exact ⟨t, h⟩
  · exact h ▸ exec_next i s

/-- Settles O12: the shapes that trap keep pc and instret, those that retire advance both, and a jump is a
transfer's. -/
theorem retireOrTrap : Obligations.RetireOrTrap := by
  unfold Obligations.RetireOrTrap
  intro i s t hn hr he
  have hs : Shape i s (.next t) := he ▸ exec_shape i s
  cases hs with
  | trap kind v | refused _ _ _ kind | scRefused _ _ _ _ kind => exact .inr ⟨kind, _, rfl, by simp, by simp⟩
  | plain | writeX | writeF | flagsF | flagsX | store | amo | reserve | scFail | scStore | csrRead | csrWrite =>
    exact .inl ⟨by simpa using hr, by simp, fun _ => (advanced_retire _ (by simp) (by simp) (by simp)).1⟩
  | jump _ ht => exact .inl ⟨by simpa using hr, by simp, fun h => by simp [ht] at h⟩
  | host hh | hostFatal hh => simp [hh] at hn

end Sys2Proof.Machine
end

section
/-! A compressed instruction and its 32-bit expansion are the same operation at two lengths (40_cycle.md R370; 49_c.md
R1000). -/

namespace Sys2Proof.Machine

variable {s : State}

/-- Two outcomes from `s` agree but for the length of the instruction, 2 bytes in the first: both are next states, the
same where the second traps, and the same but for the sequential pc where it completes (40_cycle.md R370). -/
def SameButLength (s : State) (o o' : Out) : Prop :=
  ∃ t u, o = .next t ∧ o' = .next u ∧ (u.run = .running → t = { u with pc := s.cfg.xlen.narrow (s.pc + 2) }) ∧
    (u.run ≠ .running → t = u)

theorem sameButLength_trap (u : State) (kind : TrapKind) (v : Word) :
    SameButLength s (.next (u.trap kind v)) (.next (u.trap kind v)) :=
  ⟨_, _, rfl, rfl, nofun, fun _ => rfl⟩

/-- Completion of a state that has kept configuration, pc and run. -/
theorem sameButLength_retire {u : State} (hc : u.cfg = s.cfg) (hp : u.pc = s.pc) (hr : u.run = .running) :
    SameButLength s (.next (u.retire 2)) (.next (u.retire 4)) :=
  ⟨_, _, rfl, rfl, fun _ => by rw [← hc, ← hp]; rfl, fun h => absurd hr h⟩

/-! ### The shared operations -/

theorem sameButLength_setX (hr : s.run = .running) (rd : Reg) (v : Word) :
    SameButLength s (s.setX rd v 2) (s.setX rd v 4) :=
  sameButLength_retire (s.writeX_cfg rd v) (s.writeX_pc rd v) ((s.writeX_run rd v).trans hr)

theorem sameButLength_setF (hr : s.run = .running) (rd : FReg) (v : BitVec 64) :
    SameButLength s (s.setF rd v 2) (s.setF rd v 4) := sameButLength_retire rfl rfl hr

theorem sameButLength_withRead {a : Word} {n : Nat} {k k' : Word → Out} (h : ∀ v, SameButLength s (k v) (k' v)) :
    SameButLength s (s.withRead a n k) (s.withRead a n k') := by
  unfold State.withRead
  split
  · exact sameButLength_trap s _ a
  · exact h _

theorem sameButLength_withWrite (hr : s.run = .running) (a : Word) (n : Nat) (v : Word) :
    SameButLength s (s.withWrite a n v fun t => .next (t.retire 2))
      (s.withWrite a n v fun t => .next (t.retire 4)) := by
  unfold State.withWrite
  split
  · exact sameButLength_trap _ _ a
  · exact sameButLength_retire rfl rfl hr

/-! ### The compressed instructions -/

/-- The compressed instructions but the transfers and C.EBREAK, by the operation that each shares with its expansion. -/
theorem sameButLength_exec_expand {i : Instr} (hl : (encode i).len = 2) (ht : i.transfers = false)
    (hh : i.callsHost = false) (hr : s.run = .running) : SameButLength s (exec i s) (exec i.expand s) := by
  cases i with
  | cAddi4spn | cNop | cAddi | cAddiw | cLi | cAddi16sp | cLui | cSrli | cSrai | cAndi | cSub | cXor | cOr | cAnd
  | cSubw | cAddw | cSlli | cMv | cAdd => exact sameButLength_setX hr _ _
  | cLw | cLd | cLwsp | cLdsp => exact sameButLength_withRead fun _ => sameButLength_setX hr _ _
  | cFlw | cFld | cFlwsp | cFldsp => exact sameButLength_withRead fun _ => sameButLength_setF hr _ _
  | cSw | cSd | cSwsp | cSdsp | cFsw | cFsd | cFswsp | cFsdsp => exact sameButLength_withWrite hr _ _ _
  | cJal | cJ | cBeqz | cBnez | cJr | cJalr => cases ht
  | cEbreak => cases hh
  | _ => cases hl

theorem encode_expand_len (i : Instr) : (encode i.expand).len = 4 := by cases i <;> rfl

/-- Settles O59: each compressed instruction is a shared operation at length 2, and its expansion the same one at
length 4. -/
theorem compressedRefinesExpansion : Obligations.CompressedRefinesExpansion := by
  unfold Obligations.CompressedRefinesExpansion
  exact fun i s hl ht hh hr => ⟨encode_expand_len i, sameButLength_exec_expand hl ht hh hr⟩

end Sys2Proof.Machine
end

section
/-! The outcomes of decode (40_cycle.md R356; 60_exceptions.md R1103), and that the extension of the row a parcel selects
can be read off the parcel's bits (opcode_table.json, the column ext). -/

namespace Sys2Proof

variable {cfg : Config} {p : Parcel} {i : Instr}

/-! ### Rows, enabled and disabled -/

theorem checkExt_enabled (h : i.ext.enabled cfg = true) : checkExt cfg (some i) = .ok i := if_pos h

theorem checkExt_disabled (h : i.ext.enabled cfg = false) : checkExt cfg (some i) = .unimplemented :=
  if_neg (by simp [h])

theorem decode_half_of_extC (h : cfg.extC = true) (w : BitVec 16) :
    decode cfg (.half w) = checkExt cfg (decodeRow cfg.xlen (.half w)) := if_pos h

theorem decode_half_of_not_extC (h : cfg.extC = false) (w : BitVec 16) : decode cfg (.half w) = .unimplemented :=
  if_neg (by simp [h])

theorem decode_word (cfg : Config) (w : BitVec 32) :
    decode cfg (.word w) = checkExt cfg (decodeRow cfg.xlen (.word w)) := rfl

/-- The extensions of halfwords all need EXT_C. -/
theorem extC_of_parcelLen {e : Ext} (hl : e.parcelLen = 2) (he : e.enabled cfg = true) : cfg.extC = true := by
  cases e with
  | base | m | a | f | d => cases hl
  | c => exact he
  | cf | cd => exact (Bool.and_eq_true_iff.mp he).1

theorem extC_of_encode_half {w : BitVec 16} (hi : encode i = .half w) (he : i.ext.enabled cfg = true) :
    cfg.extC = true :=
  extC_of_parcelLen (by rw [← encode_len, hi]; rfl) he

theorem decode_enabled (h : decodeRow cfg.xlen p = some i) (he : i.ext.enabled cfg = true) : decode cfg p = .ok i := by
  cases p with
  | word w =>
    rw [decode_word, h]
    exact checkExt_enabled he
  | half w =>
    rw [decode_half_of_extC (extC_of_encode_half (decodeThenEncode _ _ _ h).2 he), h]
    exact checkExt_enabled he

theorem decode_disabled (h : decodeRow cfg.xlen p = some i) (he : i.ext.enabled cfg = false) :
    decode cfg p = .unimplemented := by
  cases p with
  | word w =>
    rw [decode_word, h]
    exact checkExt_disabled he
  | half w =>
    cases hc : cfg.extC with
    | false => exact decode_half_of_not_extC hc w
    | true =>
      rw [decode_half_of_extC hc, h]
      exact checkExt_disabled he

/-! ### The extension of a word, from its fields -/

/-- The extension that opcode, funct3 and funct7 give the rows of a word (opcode_table.json). -/
def wordExt (funct7 funct3 opcode : Nat) : Ext :=
  match opcode with
  | 0x33 | 0x3B => if funct7 = 1 then .m else .base
  | 0x2F => .a
  | 0x07 | 0x27 => if funct3 = 2 then .f else if funct3 = 3 then .d else .base
  | 0x43 | 0x47 | 0x4B | 0x4F => if funct7 % 4 = 0 then .f else if funct7 % 4 = 1 then .d else .base
  | 0x53 => if funct7 % 4 = 1 ∨ funct7 = 0x20 then .d else .f
  | _ => .base

theorem provides_word_iff (cfg : Config) (w : BitVec 32) :
    cfg.Provides (.word w) ↔
      (wordExt (w.toNat / 2 ^ 25) (w.toNat / 2 ^ 12 % 8) (w.toNat % 128)).enabled cfg = true := by
  unfold wordExt
  generalize hop : w.toNat % 128 = opcode
  -- under each opcode one clause of `Provides` is left
  split <;> simp only [Config.Provides, hop] <;> split_ifs <;> simp_all [Ext.enabled]

theorem extractLsb'_toNat_eq {w n : Nat} (x : BitVec w) (k : Nat) :
    (x.extractLsb' k n).toNat = x.toNat / 2 ^ k % 2 ^ n := by
  rw [BitVec.extractLsb'_toNat, Nat.shiftRight_eq_div_pow]

theorem Fields.opcode_toNat (f : Fields) : f.opcode.toNat = f.toWord.toNat % 128 := by
  conv_lhs => rw [← f.ofWord_toWord, ofWord, extractLsb'_toNat_eq]
  simp

theorem Fields.funct3_toNat (f : Fields) : f.funct3.toNat = f.toWord.toNat / 2 ^ 12 % 8 := by
  conv_lhs => rw [← f.ofWord_toWord, ofWord, extractLsb'_toNat_eq]
  rfl

theorem Fields.funct7_toNat (f : Fields) : f.funct7.toNat = f.toWord.toNat / 2 ^ 25 := by
  conv_lhs => rw [← f.ofWord_toWord, ofWord, extractLsb'_toNat_eq]
  exact Nat.mod_eq_of_lt (Nat.div_lt_of_lt_mul f.toWord.isLt)

theorem provides_encR (funct7 : BitVec 7) (funct3 : BitVec 3) (opcode : BitVec 7) (rd rs1 rs2 : BitVec 5) :
    cfg.Provides (encR funct7 funct3 opcode rd rs1 rs2) ↔
      (wordExt funct7.toNat funct3.toNat opcode.toNat).enabled cfg = true := by
  let f : Fields := { funct7, rs2, rs1, funct3, rd, opcode }
  have h := provides_word_iff cfg f.toWord
  rwa [← f.opcode_toNat, ← f.funct3_toNat, ← f.funct7_toNat] at h

/-- The format field of the fused opcodes is the low part of funct7 (30_encoding.md R278). -/
theorem provides_encR4 {fmt : BitVec 2} {opcode : BitVec 7} {rd rs1 rs2 rs3 : BitVec 5} {rm : BitVec 3} :
    cfg.Provides (encR4 fmt opcode rd rs1 rs2 rs3 rm) ↔
      (wordExt (rs3.toNat * 4 + fmt.toNat) rm.toNat opcode.toNat).enabled cfg = true := by
  have h7 : (rs3 ++ fmt).toNat = rs3.toNat * 4 + fmt.toNat := by
    rw [BitVec.toNat_append, ← Nat.shiftLeft_add_eq_or_of_lt fmt.isLt, Nat.shiftLeft_eq]
  rw [← h7]
  exact provides_encR ..

/-! ### The extension of a halfword, from its fields -/

/-- The extension that quadrant and funct3 give the rows of a halfword (opcode_table.json). -/
def halfExt (xl : Xlen) (op funct3 : Nat) : Ext :=
  if op = 1 then .c
  else if funct3 % 4 = 1 then .cd
  else if funct3 % 4 = 3 ∧ xl = .rv32 then .cf
  else .c

theorem provides_half_iff (cfg : Config) (h : BitVec 16) :
    cfg.Provides (.half h) ↔ (halfExt cfg.xlen (h.toNat % 4) (h.toNat / 2 ^ 13)).enabled cfg = true := by
  unfold halfExt Config.Provides
  dsimp only
  generalize h.toNat % 4 = op
  generalize h.toNat / 2 ^ 13 = funct3
  split_ifs <;> simp_all [Ext.enabled]

theorem CFields.op_toNat (c : CFields) : c.op.toNat = c.toHalf.toNat % 4 := by
  conv_lhs => rw [← c.ofHalf_toHalf, ofHalf, extractLsb'_toNat_eq]
  simp

theorem CFields.funct3_toNat (c : CFields) : c.funct3.toNat = c.toHalf.toNat / 2 ^ 13 := by
  conv_lhs => rw [← c.ofHalf_toHalf, ofHalf, extractLsb'_toNat_eq]
  exact Nat.mod_eq_of_lt (Nat.div_lt_of_lt_mul c.toHalf.isLt)

theorem provides_encC (op : BitVec 2) (funct3 : BitVec 3) (b12 : BitVec 1) (mid : BitVec 2) (r1 : BitVec 3)
    (b65 : BitVec 2) (r2 : BitVec 3) :
    cfg.Provides (encC op funct3 b12 mid r1 b65 r2) ↔
      (halfExt cfg.xlen op.toNat funct3.toNat).enabled cfg = true := by
  let c : CFields := { funct3, b12, mid, r1, b65, r2, op }
  have h := provides_half_iff cfg c.toHalf
  rwa [← c.op_toNat, ← c.funct3_toNat] at h

/-! ### Every row -/

/-- The bits of a well-formed instruction tell its extension: its row gives opcode, funct3 and funct7, or quadrant and
funct3, as far as the extension depends on them. -/
theorem provides_encode (cfg : Config) (i : Instr) (hw : i.wellFormed cfg.xlen = true) :
    cfg.Provides (encode i) ↔ i.ext.enabled cfg = true := by
  cases i with
  -- the fused opcodes, whose funct7 holds a register number
  | fmaddS _ _ _ rs3 | fmsubS _ _ _ rs3 | fnmsubS _ _ _ rs3 | fnmaddS _ _ _ rs3
  | fmaddD _ _ _ rs3 | fmsubD _ _ _ rs3 | fnmsubD _ _ _ rs3 | fnmaddD _ _ _ rs3 =>
    refine provides_encR4.trans ?_
    simp [wordExt, Instr.ext]
  -- the rows of one register width only that share their quadrant and funct3
  | cFlw | cFsw | cFlwsp | cFswsp =>
    refine (provides_encC ..).trans ?_
    rw [Xlen.eq_rv32_of_is32 hw]
    rfl
  | cLd | cSd | cSdsp =>
    refine (provides_encC ..).trans ?_
    rw [Xlen.eq_rv64_of_is64 hw]
    rfl
  | cLdsp =>
    refine (provides_encC ..).trans ?_
    rw [Xlen.eq_rv64_of_is64 (Bool.and_eq_true_iff.mp hw).1]
    rfl
  | cAddi4spn | cFld | cLw | cFsd | cSw | cNop | cAddi | cJal | cAddiw | cLi | cAddi16sp | cLui | cSrli | cSrai
  | cAndi | cSub | cXor | cOr | cAnd | cSubw | cAddw | cJ | cBeqz | cBnez | cSlli | cFldsp | cLwsp | cJr | cMv
  | cEbreak | cJalr | cAdd | cFsdsp | cSwsp => exact provides_encC ..
  | _ => exact provides_encR ..

/-- Settles O4: a row's own bits give its extension, since a parcel that selects a row is that row's encoding; the other
clauses are the branches of decode. -/
theorem decodeOutcomes : Obligations.DecodeOutcomes := by
  unfold Obligations.DecodeOutcomes
  refine fun cfg => ⟨fun h hc => decode_half_of_not_extC hc h, fun h hc hn => ?_, fun w hn => ?_,
    fun _ _ => decode_enabled, fun _ _ => decode_disabled, fun p i hr => ?_⟩
  · rw [decode_half_of_extC hc, hn]
    rfl
  · rw [decode_word, hn]
    rfl
  · obtain ⟨hw, rfl⟩ := decodeThenEncode _ _ _ hr
    exact (provides_encode cfg i hw).symm

end Sys2Proof
end

section
/-! The values of the computational forms (41_integer.md). An operation given for every width is read as integers once,
whatever the width. At XLEN it runs at the width XLEN and its result counts modulo 2^XLEN; the W forms run at 32 bits
and their result is read as signed (00_scope.md R22 to R24; 41_integer.md R400). -/

namespace Sys2Proof

section

/-! ### Values and integers -/

variable {w : Nat} {a b : BitVec w} {x y : Int} {m n k : Nat}

theorem ofInt_toNat (a : BitVec w) : BitVec.ofInt w (a.toNat : Int) = a := by simp

theorem natCast_toNat_ofInt (w : Nat) (x : Int) : ((BitVec.ofInt w x).toNat : Int) = x % (2 ^ w : Nat) := by
  rw [BitVec.toNat_ofInt, Int.toNat_of_nonneg (Int.emod_nonneg _ (by positivity))]

/-! ### The operations, on integers -/

theorem opAdd_of_ofInt (ha : a = BitVec.ofInt w x) (hb : b = BitVec.ofInt w y) :
    opAdd w a b = BitVec.ofInt w (x + y) := by
  rw [ha, hb, BitVec.ofInt_add]
  rfl

theorem opSub_of_ofInt (ha : a = BitVec.ofInt w x) (hb : b = BitVec.ofInt w y) :
    opSub w a b = BitVec.ofInt w (x - y) := by
  have hsum : BitVec.ofInt w (x - y) + b = a := by rw [hb, ← BitVec.ofInt_add, Int.sub_add_cancel, ha]
  exact (eq_sub_of_add_eq hsum).symm

theorem opXor_of_toNat (ha : a.toNat = m) (hb : b.toNat = n) :
    opXor w a b = BitVec.ofInt w ((m ^^^ n : Nat) : Int) := by
  rw [← ha, ← hb]
  exact (ofInt_toNat (a ^^^ b)).symm

theorem opOr_of_toNat (ha : a.toNat = m) (hb : b.toNat = n) :
    opOr w a b = BitVec.ofInt w ((m ||| n : Nat) : Int) := by
  rw [← ha, ← hb]
  exact (ofInt_toNat (a ||| b)).symm

theorem opAnd_of_toNat (ha : a.toNat = m) (hb : b.toNat = n) :
    opAnd w a b = BitVec.ofInt w ((m &&& n : Nat) : Int) := by
  rw [← ha, ← hb]
  exact (ofInt_toNat (a &&& b)).symm

theorem ite_one_zero_eq_ofInt (c : Bool) : (if c then 1#w else 0#w) = BitVec.ofInt w (Machine.oneIf c) := by
  cases c <;> simp [Machine.oneIf]

theorem opSlt_of_toInt (ha : a.toInt = x) (hb : b.toInt = y) :
    opSlt w a b = BitVec.ofInt w (Machine.oneIf (decide (x < y))) := by
  rw [← ha, ← hb]
  exact ite_one_zero_eq_ofInt _

theorem opSltu_of_toNat (ha : a.toNat = m) (hb : b.toNat = n) :
    opSltu w a b = BitVec.ofInt w (Machine.oneIf (decide (m < n))) := by
  rw [← ha, ← hb]
  exact ite_one_zero_eq_ofInt _

/-- A shift to the left is a product, so the operand counts modulo 2^w. -/
theorem opSll_of_ofInt (ha : a = BitVec.ofInt w x) (hk : b.toNat % w = k) :
    opSll w a b = BitVec.ofInt w (x * 2 ^ k) := by
  have hpow : BitVec.ofInt w (2 ^ k) = BitVec.twoPow w k := by
    apply BitVec.eq_of_toNat_eq
    rw [BitVec.toNat_ofInt, BitVec.toNat_twoPow]
    norm_cast
  rw [opSll, hk, BitVec.shiftLeft_eq_mul_twoPow, BitVec.ofInt_mul, ← ha, hpow]

theorem opSrl_of_toNat (ha : (a.toNat : Int) = x) (hk : b.toNat % w = k) :
    opSrl w a b = BitVec.ofInt w (x / 2 ^ k) := by
  have hquot : ((opSrl w a b).toNat : Int) = x / 2 ^ k := by
    rw [opSrl, hk, BitVec.toNat_ushiftRight, Nat.shiftRight_eq_div_pow, ← ha]
    norm_cast
  rw [← hquot, ofInt_toNat]

theorem toInt_opSra (ha : a.toInt = x) (hk : b.toNat % w = k) : (opSra w a b).toInt = x / 2 ^ k := by
  simp [opSra, ha, hk, BitVec.toInt_sshiftRight, Int.shiftRight_eq_div_pow]

theorem opSra_of_toInt (ha : a.toInt = x) (hk : b.toNat % w = k) : opSra w a b = BitVec.ofInt w (x / 2 ^ k) := by
  rw [← toInt_opSra ha hk, BitVec.ofInt_toInt]

end

/-! ### The width of an operation -/

/-- At XLEN the operation runs at the width XLEN, its result held in a word. -/
theorem Xlen.lift_eq (xl : Xlen) (op : WidthOp) (a b : Word) :
    xl.lift op a b = (op xl.bits (a.setWidth xl.bits) (b.setWidth xl.bits)).setWidth 64 := by
  cases xl
  · rfl
  · simp [lift, bits]

theorem Xlen.bits_le (xl : Xlen) : xl.bits ≤ 64 := by cases xl <;> decide

theorem Xlen.le_bits (xl : Xlen) : 32 ≤ xl.bits := by cases xl <;> decide

/-- Narrowing to XLEN bits loses nothing that a width up to XLEN sees. -/
theorem Xlen.setWidth_narrow (xl : Xlen) (v : Word) {k : Nat} (hk : k ≤ xl.bits) :
    (xl.narrow v).setWidth k = v.setWidth k := by
  apply BitVec.eq_of_toNat_eq
  rw [BitVec.toNat_setWidth, narrow_toNat, Nat.mod_mod_of_dvd _ (Nat.pow_dvd_pow 2 hk), BitVec.toNat_setWidth]

theorem setWidth_ofInt {j k : Nat} (x : Int) (h : k ≤ j) : (BitVec.ofInt j x).setWidth k = BitVec.ofInt k x := by
  have hd : ((2 ^ k : Nat) : Int) ∣ ((2 ^ j : Nat) : Int) := Int.natCast_dvd_natCast.mpr (Nat.pow_dvd_pow 2 h)
  apply BitVec.eq_of_toInt_eq
  rw [BitVec.toInt_setWidth, natCast_toNat_ofInt, ← Int.emod_bmod, Int.emod_emod_of_dvd _ hd, Int.emod_bmod,
    BitVec.toInt_ofInt]

/-- A sign-extended immediate, seen at a width up to XLEN, is the field sign-extended to that width. -/
theorem Xlen.setWidth_sext (xl : Xlen) {n : Nat} (imm : BitVec n) {k : Nat} (hk : k ≤ xl.bits) :
    (xl.sext imm).setWidth k = imm.signExtend k := by
  rw [sext, setWidth_narrow xl _ hk]
  exact setWidth_ofInt imm.toInt (hk.trans xl.bits_le)

/-- The immediate of LUI and AUIPC, as an integer modulo 2^XLEN (30_encoding.md R273). -/
theorem Xlen.immU_toNat (xl : Xlen) (imm : BitVec 20) :
    ((xl.immU imm).toNat : Int) = imm.toInt * 4096 % (2 ^ xl.bits : Nat) := by
  rw [immU, sext_toNat _ _ (by decide), BitVec.toInt_append_zero, Int.mul_comm]
  rfl

/-- A zero-extended field, seen at a width up to XLEN. -/
theorem Xlen.setWidth_zext (xl : Xlen) {n : Nat} (v : BitVec n) {k : Nat} (hk : k ≤ xl.bits) :
    (xl.zext v).setWidth k = v.setWidth k := by
  rw [zext, setWidth_narrow xl _ hk, BitVec.setWidth_setWidth_of_le _ (hk.trans xl.bits_le)]

/-- The amounts the encoding allows are those below XLEN (30_encoding.md R275). -/
theorem Xlen.toNat_lt_bits {xl : Xlen} {shamt : BitVec 6} (h : xl.shamtOk shamt = true) : shamt.toNat < xl.bits := by
  cases xl with
  | rv32 =>
    have hmsb : shamt.msb = false := by simpa [shamtOk, BitVec.msb_eq_getLsbD_last] using h
    exact BitVec.toNat_lt_of_msb_false hmsb
  | rv64 => exact shamt.isLt

/-- An amount below the width is the amount of the shift. -/
theorem toNat_setWidth_mod {n k : Nat} {shamt : BitVec n} (h : shamt.toNat < k) :
    (shamt.setWidth k).toNat % k = shamt.toNat := by
  rw [BitVec.toNat_setWidth, Nat.mod_eq_of_lt (h.trans Nat.lt_two_pow_self), Nat.mod_eq_of_lt h]

end Sys2Proof

namespace Sys2Proof.Machine

variable {s : State} {i : Instr} {op : WidthOp} {rd rs1 rs2 : Reg} {len : Nat} {V : Int}

/-! ### Operands -/

/-- The low `k` bits of a register, the operand of an operation at the width `k`. -/
def State.low (s : State) (k : Nat) (r : Reg) : BitVec k := (s.readX r).setWidth k

theorem State.low_eq_ofInt (s : State) (k : Nat) (r : Reg) : s.low k r = BitVec.ofInt k (s.U r) :=
  (BitVec.ofNat_toNat k (s.readX r)).symm

theorem State.low_toNat (s : State) (r : Reg) : (s.low s.cfg.xlen.bits r).toNat = s.N r := by
  rw [State.low, BitVec.toNat_setWidth, Nat.mod_eq_of_lt (s.readX_lt r)]
  rfl

theorem State.low_toInt (s : State) (r : Reg) : (s.low s.cfg.xlen.bits r).toInt = s.S r := by
  rw [s.low_eq_ofInt, BitVec.toInt_ofInt]
  rfl

theorem State.low32_toNat (s : State) (r : Reg) : ((s.low 32 r).toNat : Int) = s.U32 r := by
  rw [State.low, BitVec.toNat_setWidth]
  rfl

theorem State.low32_toInt (s : State) (r : Reg) : (s.low 32 r).toInt = s.S32 r := by
  rw [s.low_eq_ofInt, BitVec.toInt_ofInt]
  rfl

theorem State.signExtend_toNat (s : State) {n : Nat} (imm : BitVec n) :
    (imm.signExtend s.cfg.xlen.bits).toNat = s.immN imm :=
  BitVec.toNat_ofInt _

theorem State.signExtend_toInt (s : State) (imm : BitVec 12) : (imm.signExtend s.cfg.xlen.bits).toInt = imm.toInt :=
  BitVec.toInt_signExtend_of_le (Nat.le_trans (by decide) s.cfg.xlen.le_bits)

/-! ### Completion at XLEN -/

theorem toNat_add_mod_size (s : State) (a b : Word) : (a + b).toNat % s.size = (a.toNat + b.toNat) % s.size :=
  (Xlen.narrow_toNat ..).symm.trans (Xlen.narrow_add_toNat ..)

/-- An operation at XLEN completes with the integer its result is. -/
theorem yieldsX_of_lift {a b : Word} (h : exec i s = s.setX rd (s.cfg.xlen.lift op a b) len)
    (hv : op s.cfg.xlen.bits (a.setWidth _) (b.setWidth _) = BitVec.ofInt _ V) : YieldsX i s rd V len := by
  refine yieldsX_of_setX h ?_
  rw [Xlen.lift_eq, hv, BitVec.toNat_setWidth_of_le s.cfg.xlen.bits_le, natCast_toNat_ofInt]
  exact Int.emod_emod ..

theorem yieldsX_of_opReg (h : exec i s = s.opReg op rd rs1 rs2 len)
    (hv : op s.cfg.xlen.bits (s.low _ rs1) (s.low _ rs2) = BitVec.ofInt _ V) : YieldsX i s rd V len :=
  yieldsX_of_lift h hv

theorem yieldsX_of_opImm {imm : BitVec 12} (h : exec i s = s.opImm op rd rs1 imm len)
    (hv : op s.cfg.xlen.bits (s.low _ rs1) (imm.signExtend _) = BitVec.ofInt _ V) : YieldsX i s rd V len :=
  yieldsX_of_lift h (by rwa [Xlen.setWidth_sext _ _ le_rfl])

theorem yieldsX_of_opShamt {shamt : BitVec 6} (h : exec i s = s.opShamt op rd rs1 shamt len)
    (hv : op s.cfg.xlen.bits (s.low _ rs1) (shamt.setWidth _) = BitVec.ofInt _ V) : YieldsX i s rd V len :=
  yieldsX_of_lift h (by rwa [Xlen.setWidth_zext _ _ le_rfl])

/-! ### Completion of the W forms -/

/-- A W form completes with its 32-bit result read as signed. -/
theorem yieldsX_of_liftW {a b : Word} (h : exec i s = s.setX rd (s.cfg.xlen.liftW op a b) len)
    (hv : (op 32 (a.setWidth 32) (b.setWidth 32)).toInt = V) : YieldsX i s rd V len := by
  refine yieldsX_of_setX h ?_
  rw [Xlen.liftW, Xlen.sext_toNat _ _ (by decide), hv]
  exact Int.emod_emod ..

theorem yieldsX_of_opRegW (h : exec i s = s.opRegW op rd rs1 rs2 len)
    (hv : (op 32 (s.low 32 rs1) (s.low 32 rs2)).toInt = V) : YieldsX i s rd V len :=
  yieldsX_of_liftW h hv

theorem yieldsX_of_opImmW {imm : BitVec 12} (h : exec i s = s.opImmW op rd rs1 imm len)
    (hv : (op 32 (s.low 32 rs1) (imm.signExtend 32)).toInt = V) : YieldsX i s rd V len :=
  yieldsX_of_liftW h (by rwa [Xlen.setWidth_sext _ _ s.cfg.xlen.le_bits])

theorem yieldsX_of_opShamtW {shamt : BitVec 5} (h : exec i s = s.opShamtW op rd rs1 shamt len)
    (hv : (op 32 (s.low 32 rs1) (shamt.setWidth 32)).toInt = V) : YieldsX i s rd V len :=
  yieldsX_of_liftW h (by rwa [Xlen.setWidth_zext _ _ s.cfg.xlen.le_bits])

theorem toInt_eq_sext32Int {v : BitVec 32} (h : v = BitVec.ofInt 32 V) : v.toInt = sext32Int V := by
  rw [h]
  exact BitVec.toInt_ofInt V

end Sys2Proof.Machine
end

section
/-! The integer computational instructions complete with their results (41_integer.md), and the words the spec writes
out select the rows it names. -/

namespace Sys2Proof.Machine

/-- Settles O19: at XLEN each operation has the value its rule gives. -/
theorem registerResults : Obligations.RegisterResults := by
  unfold Obligations.RegisterResults
  intro s rd rs1 rs2
  have hU1 := s.low_eq_ofInt s.cfg.xlen.bits rs1
  have hU2 := s.low_eq_ofInt s.cfg.xlen.bits rs2
  have hN1 := s.low_toNat rs1
  have hN2 := s.low_toNat rs2
  refine ⟨yieldsX_of_opReg rfl (opAdd_of_ofInt hU1 hU2), yieldsX_of_opReg rfl (opSub_of_ofInt hU1 hU2),
    yieldsX_of_opReg rfl (opSlt_of_toInt (s.low_toInt rs1) (s.low_toInt rs2)), ?_,
    yieldsX_of_opReg rfl (opXor_of_toNat hN1 hN2), yieldsX_of_opReg rfl (opOr_of_toNat hN1 hN2),
    yieldsX_of_opReg rfl (opAnd_of_toNat hN1 hN2)⟩
  have hlt : (s.U rs1 < s.U rs2) = (s.N rs1 < s.N rs2) := propext Int.ofNat_lt
  simp only [hlt]
  exact yieldsX_of_opReg rfl (opSltu_of_toNat hN1 hN2)

/-- Settles O20: the immediate is the field sign-extended to XLEN, or the 20-bit field in bits 31:12. -/
theorem immediateResults : Obligations.ImmediateResults := by
  unfold Obligations.ImmediateResults
  refine ⟨fun s rd rs1 imm => ?_, fun s rd imm => ⟨?_, ?_⟩⟩
  · have hN := s.low_toNat rs1
    have hI := s.signExtend_toNat imm
    exact ⟨yieldsX_of_opImm rfl (opAdd_of_ofInt (s.low_eq_ofInt _ rs1) rfl),
      yieldsX_of_opImm rfl (opSlt_of_toInt (s.low_toInt rs1) (s.signExtend_toInt imm)),
      yieldsX_of_opImm rfl (opSltu_of_toNat hN hI), yieldsX_of_opImm rfl (opXor_of_toNat hN hI),
      yieldsX_of_opImm rfl (opOr_of_toNat hN hI), yieldsX_of_opImm rfl (opAnd_of_toNat hN hI)⟩
  · refine yieldsX_of_setX rfl ?_
    rw [Xlen.immU_toNat]
    exact Int.emod_emod ..
  · refine yieldsX_of_setX rfl ?_
    rw [← Int.natCast_emod, toNat_add_mod_size]
    push_cast
    rw [Xlen.immU_toNat]
    exact Int.add_emod_emod ..

/-- Settles O21: the amount is reduced modulo XLEN, which leaves an allowed immediate amount as it is. -/
theorem shiftResults : Obligations.ShiftResults := by
  unfold Obligations.ShiftResults
  intro s rd rs1 rs2 shamt
  have hU := s.low_eq_ofInt s.cfg.xlen.bits rs1
  have hN : ((s.low s.cfg.xlen.bits rs1).toNat : Int) = s.U rs1 := congrArg _ (s.low_toNat rs1)
  have hS := s.low_toInt rs1
  have hk : (s.low _ rs2).toNat % s.cfg.xlen.bits = s.N rs2 % s.cfg.xlen.bits := congrArg (· % _) (s.low_toNat rs2)
  refine ⟨yieldsX_of_opReg rfl (opSll_of_ofInt hU hk), yieldsX_of_opReg rfl (opSrl_of_toNat hN hk),
    yieldsX_of_opReg rfl (opSra_of_toInt hS hk), fun hok => ?_⟩
  have hshamt := toNat_setWidth_mod (Xlen.toNat_lt_bits hok)
  exact ⟨yieldsX_of_opShamt rfl (opSll_of_ofInt hU hshamt), yieldsX_of_opShamt rfl (opSrl_of_toNat hN hshamt),
    yieldsX_of_opShamt rfl (opSra_of_toInt hS hshamt)⟩

/-- Settles O22: the operation runs on the low 32 bits, and its result is read as signed. -/
theorem wordResults : Obligations.WordResults := by
  unfold Obligations.WordResults
  intro s rd rs1 rs2 imm shamt _
  have hU1 := s.low_eq_ofInt 32 rs1
  have hU2 := s.low_eq_ofInt 32 rs2
  have hN := s.low32_toNat rs1
  have h32 : s.low 32 rs1 = BitVec.ofInt 32 (s.U32 rs1) := by rw [← hN, ofInt_toNat]
  have hS := s.low32_toInt rs1
  have hk : (s.low 32 rs2).toNat % 32 = s.N rs2 % 32 := by
    rw [State.low, BitVec.toNat_setWidth, Nat.mod_mod_of_dvd _ (by decide)]
    rfl
  have hshamt := toNat_setWidth_mod shamt.isLt
  exact ⟨yieldsX_of_opImmW rfl (toInt_eq_sext32Int (opAdd_of_ofInt hU1 rfl)),
    yieldsX_of_opRegW rfl (toInt_eq_sext32Int (opAdd_of_ofInt hU1 hU2)),
    yieldsX_of_opRegW rfl (toInt_eq_sext32Int (opSub_of_ofInt hU1 hU2)),
    yieldsX_of_opShamtW rfl (toInt_eq_sext32Int (opSll_of_ofInt h32 hshamt)),
    yieldsX_of_opShamtW rfl (toInt_eq_sext32Int (opSrl_of_toNat hN hshamt)),
    yieldsX_of_opShamtW rfl (toInt_opSra hS hshamt),
    yieldsX_of_opRegW rfl (toInt_eq_sext32Int (opSll_of_ofInt h32 hk)),
    yieldsX_of_opRegW rfl (toInt_eq_sext32Int (opSrl_of_toNat hN hk)),
    yieldsX_of_opRegW rfl (toInt_opSra hS hk)⟩

/-- A parcel selects the row it is the encoding of. -/
theorem decodeRow_of_encode {xl : Xlen} {i : Instr} {p : Parcel} (hw : i.wellFormed xl = true) (he : encode i = p) :
    decodeRow xl p = some i :=
  he ▸ encodeThenDecode xl i hw

/-- Settles O3: each word is the encoding of the instruction the spec names. -/
theorem specWordsDecode : Obligations.SpecWordsDecode := by
  unfold Obligations.SpecWordsDecode
  refine ⟨?_, ?_, ?_, ?_, ?_, ?_, ?_, ?_, ?_, ?_, ?_, ?_⟩ <;> exact decodeRow_of_encode rfl rfl

end Sys2Proof.Machine
end

section
/-! Jumps and branches go where their operands say (42_control.md R500 to R508): the target of JALR and the condition of
each branch, read as integers. -/

namespace Sys2Proof

/-- `signed(v)` is the residue of `v` modulo 2^XLEN of least magnitude (00_scope.md R23). -/
theorem Xlen.signed_eq_bmod (xl : Xlen) (v : Word) : xl.signed v = (v.toNat : Int).bmod (2 ^ xl.bits) := by
  cases xl with
  | rv32 => exact BitVec.toInt_setWidth v
  | rv64 => exact BitVec.toInt_eq_toNat_bmod v

/-- Clearing bit 0 of a word rounds it down to an even number. -/
theorem toNat_and_not_one (v : Word) : (v &&& ~~~1#64).toNat = v.toNat / 2 * 2 := by
  have hshift : v &&& ~~~1#64 = (v >>> 1) <<< 1 := by
    ext k hk
    rw [BitVec.getElem_and, BitVec.getElem_not, BitVec.getElem_one, BitVec.getElem_shiftLeft]
    cases k with
    | zero => simp
    | succ k => simp [Nat.add_comm, ← BitVec.getLsbD_eq_getElem]
  have hlt := v.isLt
  rw [hshift, BitVec.toNat_shiftLeft, BitVec.toNat_ushiftRight, Nat.shiftLeft_eq, Nat.shiftRight_one, Nat.pow_one]
  omega

end Sys2Proof

namespace Sys2Proof.Machine

variable {i : Instr} {s : State} {rs1 rs2 : Reg} {off : BitVec 12} {taken : Bool} {P : Prop} {len : Nat}

/-! ### Targets -/

/-- The address of a register plus a sign-extended immediate, as an integer modulo 2^XLEN (43_loadstore.md R550). -/
theorem State.address_toNat (s : State) (rs1 : Reg) (imm : BitVec 12) :
    (s.address rs1 imm).toNat = ((s.U rs1 + imm.toInt) % s.size).toNat := by
  have hsext : ((s.cfg.xlen.sext imm).toNat : Int) = imm.toInt % s.size := s.cfg.xlen.sext_toNat imm (by decide)
  have hsum : (s.address rs1 imm).toNat = (s.N rs1 + (s.cfg.xlen.sext imm).toNat) % s.size :=
    s.cfg.xlen.narrow_add_toNat _ _
  have hcast : ((s.address rs1 imm).toNat : Int) = (s.U rs1 + imm.toInt) % s.size := by
    rw [hsum, Int.natCast_emod, Int.natCast_add, hsext, Int.add_emod_emod]
    rfl
  rw [← hcast, Int.toNat_natCast]

theorem State.jalrTarget_toNat (s : State) (rs1 : Reg) (imm : BitVec 12) :
    (s.jalrTarget rs1 imm).toNat = s.fromReg rs1 imm.toInt := by
  rw [State.fromReg, ← s.address_toNat]
  exact toNat_and_not_one (s.address rs1 imm)

theorem State.fromReg_lt (s : State) (rs1 : Reg) (imm : BitVec 12) : s.fromReg rs1 imm.toInt < s.size := by
  rw [State.fromReg, ← s.address_toNat]
  exact (Nat.div_mul_le_self _ 2).trans_lt (address_lt s rs1 _)

/-! ### Conditions -/

theorem U_eq_iff : s.U rs1 = s.U rs2 ↔ (s.readX rs1 == s.readX rs2) = true := by
  rw [beq_iff_eq, ← BitVec.toNat_inj]
  exact Int.ofNat_inj

theorem S_lt_iff : s.S rs1 < s.S rs2 ↔ s.ltX rs1 rs2 = true := by
  rw [State.ltX, decide_eq_true_iff, Xlen.signed_eq_bmod, Xlen.signed_eq_bmod]
  rfl

theorem U_lt_iff : s.U rs1 < s.U rs2 ↔ s.ltuX rs1 rs2 = true := by
  rw [State.ltuX, decide_eq_true_iff, Xlen.unsigned, Xlen.unsigned, s.narrow_readX, s.narrow_readX]
  exact Int.ofNat_lt

/-! ### Branches -/

/-- A branch on a condition goes to its offset from pc. -/
theorem branches_of_iff (hP : P ↔ taken = true) (h : exec i s = s.branch taken off len) :
    Branches i s P (s.fromPc (off.toInt * 2)) len :=
  branches_of_branch h hP (offset_target s off (by decide))

/-- A branch on the opposite of a condition. -/
theorem branches_of_iff_not (hP : P ↔ taken = true) (h : exec i s = s.branch (!taken) off len) :
    Branches i s (¬P) (s.fromPc (off.toInt * 2)) len :=
  branches_of_iff (by simp [hP]) h

/-- Settles O25: a jump is `link` to its target and a branch is `branch` on its condition; BNE, BGE and BGEU are the
opposites of BEQ, BLT and BLTU. -/
theorem transferResults : Obligations.TransferResults := by
  unfold Obligations.TransferResults
  refine ⟨fun s rd rs1 off imm => ⟨?_, ?_⟩, fun s rs1 rs2 off => ?_⟩
  · have htarget := offset_target s off le_rfl
    exact jumps_of_link rfl htarget (htarget ▸ Xlen.narrow_lt _ _) fun _ => rfl
  · exact jumps_of_link rfl (s.jalrTarget_toNat rs1 imm) (s.fromReg_lt rs1 imm) fun _ => rfl
  · simp only [← Int.not_lt]
    exact ⟨branches_of_iff U_eq_iff rfl, branches_of_iff_not U_eq_iff rfl, branches_of_iff S_lt_iff rfl,
      branches_of_iff_not S_lt_iff rfl, branches_of_iff U_lt_iff rfl, branches_of_iff_not U_lt_iff rfl⟩

end Sys2Proof.Machine
end

section
/-! The integer loads and stores complete or trap (43_loadstore.md R550 to R562): a load of either extension, for the
12-bit and the compressed offsets alike, and the seven loads and four stores. -/

namespace Sys2Proof.Machine

variable {i : Instr} {s : State} {rd : Reg} {a : Word} {n len : Nat}

/-- A load that zero-extends the bytes it reads. -/
theorem loadsX_of_zext (hn : n ≤ 8) (h : exec i s = s.withRead a n fun v => s.setX rd (zextLoaded v) len) :
    LoadsX i s rd a n (s.bytesAt a.toNat n : Int) len := by
  refine loadsX_of_withRead h ?_
  rw [zextLoaded, loadValue_toNat s a hn]

/-- A load that sign-extends the low `k` bits of what it reads. -/
theorem loadsX_of_sext {k : Nat} (hn : n ≤ 8) (hk : k ≤ 64)
    (h : exec i s = s.withRead a n fun v => s.setX rd (s.cfg.xlen.sext (v.setWidth k)) len) :
    LoadsX i s rd a n ((s.bytesAt a.toNat n : Int).bmod (2 ^ k)) len := by
  refine loadsX_of_withRead h ?_
  rw [Xlen.sext_toNat _ _ hk, BitVec.toInt_setWidth, loadValue_toNat s a hn]
  exact Int.emod_emod ..

/-- Settles O26: each load is a read at State.address, then the sign or zero extension of the value read. -/
theorem loadResults : Obligations.LoadResults := by
  unfold Obligations.LoadResults
  intro s rd rs1 imm
  exact ⟨s.address_toNat rs1 imm, loadsX_of_sext (by decide) (by decide) rfl,
    loadsX_of_sext (by decide) (by decide) rfl, loadsX_of_sext (by decide) (by decide) rfl,
    loadsX_of_zext (by decide) rfl, loadsX_of_zext (by decide) rfl,
    fun _ => ⟨loadsX_of_zext (by decide) rfl, loadsX_of_zext (by decide) rfl⟩⟩

/-- Settles O27: each store is a write at State.address, an address of XLEN bits, after which the instruction
retires. -/
theorem storeResults : Obligations.StoreResults := by
  unfold Obligations.StoreResults
  intro s rs1 rs2 imm
  have ha : (s.address rs1 imm).toNat < s.size := address_lt s rs1 _
  exact ⟨s.address_toNat rs1 imm, stores_of_withWrite (by decide) ha rfl, stores_of_withWrite (by decide) ha rfl,
    stores_of_withWrite (by decide) ha rfl, fun _ => stores_of_withWrite (by decide) ha rfl⟩

end Sys2Proof.Machine
end

section
/-! The words under the opcode SYSTEM that no configuration decodes (44_system.md R612; 30_encoding.md R310). -/

namespace Sys2Proof

variable {f : Fields} {i : Instr}

theorem decodeFields_system (xl : Xlen) (hop : f.opcode = 0x73#7) : decodeFields xl f = decodeSystem f := by
  rw [decodeFields, hop]
  rfl

/-- The rows of SYSTEM under funct3 000 and 100 are ECALL and EBREAK; the others are the Zicsr instructions. -/
theorem eq_ecall_or_ebreak_of_decodeSystem (h3 : f.funct3 = 0#3 ∨ f.funct3 = 4#3) (h : decodeSystem f = some i) :
    i = .ecall ∨ i = .ebreak := by
  unfold decodeSystem at h
  split at h
  case h_1 =>
    split at h
    case h_1 => exact .inl (Option.some.inj h).symm
    case h_2 => exact .inr (Option.some.inj h).symm
    case h_3 => cases h
  case h_8 => cases h
  all_goals
    rename f.funct3 = _ => hother
    exact absurd (hother ▸ h3) (by decide)

/-- Settles O5: a row selected would be ECALL or EBREAK, and the word its encoding. -/
theorem systemWordsRefused : Obligations.SystemWordsRefused := by
  unfold Obligations.SystemWordsRefused
  intro cfg w hop h3 hcall hbreak
  have hopcode : (Fields.ofWord w).opcode = 0x73#7 := by
    rw [← BitVec.toNat_inj, Fields.opcode_toNat, Fields.toWord_ofWord]
    exact hop
  have hfunct3 : (Fields.ofWord w).funct3 = 0#3 ∨ (Fields.ofWord w).funct3 = 4#3 := by
    simp only [← BitVec.toNat_inj, Fields.funct3_toNat, Fields.toWord_ofWord]
    exact h3
  rw [decode_word]
  cases hrow : decodeRow cfg.xlen (.word w) with
  | none => rfl
  | some i =>
    obtain ⟨-, henc⟩ := decodeThenEncode _ _ _ hrow
    rcases eq_ecall_or_ebreak_of_decodeSystem hfunct3 ((decodeFields_system cfg.xlen hopcode).symm.trans hrow)
      with rfl | rfl
    · exact absurd (Parcel.word.inj henc).symm hcall
    · exact absurd (Parcel.word.inj henc).symm hbreak

end Sys2Proof
end

section
/-! FENCE, FENCE.I and the host calls (44_system.md R600 to R603; 49_c.md R1038; 60_exceptions.md R1120, R1121). -/

namespace Sys2Proof.Machine

variable {s : State}

/-- Settles O30: either instruction is `retire` alone. -/
theorem fencesAreNoOps : Obligations.FencesAreNoOps := by
  unfold Obligations.FencesAreNoOps
  intro s fm pred succ imm rs1 rd
  have hretired : OnlyX s (s.retire 4) 0#5 ∧ Advanced s (s.retire 4) 4 :=
    ⟨(onlyX_refl s 0#5).retire 4, advanced_retire 4 rfl rfl rfl⟩
  exact ⟨⟨_, rfl, hretired⟩, ⟨_, rfl, hretired⟩⟩

/-! ### Host calls -/

/-- How a host call ends: after the callback's uses, by retiring or by the trap it reports. -/
theorem State.hostCall_eq (s : State) (call : HostCall) (len : Nat) :
    let reply := Config.hostReply call s.draws s
    let left := { s with draws := s.draws + 1 }.hostActs reply.actions
    s.hostCall call len =
      .next (match reply.fatal with
        | none => left.retire len
        | some k => left.trap k.1 (s.cfg.xlen.narrow k.2)) := by
  dsimp only [State.hostCall]
  cases (Config.hostReply call s.draws s).fatal <;> rfl

theorem State.syscallInstalled_iff (s : State) (n : Nat) :
    s.syscallInstalled n = true ↔ n < s.cfg.nsyscalls ∧ n ∈ s.syscalls := by
  simp [State.syscallInstalled]

theorem State.ecall_of_installed (h : s.syscallInstalled s.syscallNumber.toNat = true) (len : Nat) :
    s.ecall len = s.hostCall (.syscall (s.readX 17#5)) len := if_pos h

theorem State.ecall_of_not_installed (h : ¬s.syscallInstalled s.syscallNumber.toNat = true) (len : Nat) :
    s.ecall len = .next (s.trap .unhandledSyscall (s.readX 17#5)) := if_neg h

theorem State.ebreak_of_handler (h : s.debugHandler = true) (bits : Word) (len : Nat) :
    s.ebreak bits len = s.hostCall .debug len := if_pos h

theorem State.ebreak_of_no_handler (h : s.debugHandler = false) (bits : Word) (len : Nat) :
    s.ebreak bits len = .next (s.trap .unhandledSyscall bits) := if_neg (by simp [h])

/-- Settles O31: with a handler installed each instruction is its host call, without one its trap. -/
theorem hostCallResults : Obligations.HostCallResults := by
  unfold Obligations.HostCallResults
  refine ⟨fun s => ⟨fun hn hmem => ?_, fun hd => ⟨?_, ?_⟩⟩, fun s => ⟨fun hn => ?_, fun hd => ⟨?_, ?_⟩⟩⟩
  · have hinst := (s.syscallInstalled_iff _).mpr ⟨hn, hmem⟩
    exact (State.ecall_of_installed hinst 4).trans (s.hostCall_eq _ 4)
  · exact (State.ebreak_of_handler hd _ 4).trans (s.hostCall_eq _ 4)
  · exact (State.ebreak_of_handler hd _ 2).trans (s.hostCall_eq _ 2)
  · exact State.ecall_of_not_installed (fun hinst => hn ((s.syscallInstalled_iff _).mp hinst)) 4
  · exact State.ebreak_of_no_handler hd _ 4
  · exact State.ebreak_of_no_handler hd _ 2

end Sys2Proof.Machine
end

section
/-! The Zicsr instructions on fflags, frm and fcsr, and their traps (44_system.md R604 to R613; 10_state.md R70 to R80).
-/

namespace Sys2Proof

theorem toNat_append_eq {m n : Nat} (x : BitVec m) (y : BitVec n) : (x ++ y).toNat = x.toNat * 2 ^ n + y.toNat := by
  rw [BitVec.toNat_append, ← Nat.shiftLeft_add_eq_or_of_lt y.isLt, Nat.shiftLeft_eq]

/-- Clearing the bits of `y` subtracts those of them that are set. -/
theorem toNat_and_not {w : Nat} (x y : BitVec w) : (x &&& ~~~y).toNat = x.toNat - (x.toNat &&& y.toNat) := by
  have hdisjoint : (x &&& y) &&& (x &&& ~~~y) = 0#w := by
    ext k hk
    cases hy : y[k] <;> simp [hy]
  have hjoin : (x &&& y) ||| (x &&& ~~~y) = x := by
    ext k hk
    cases hy : y[k] <;> simp [hy]
  have hsum := BitVec.toNat_add_of_and_eq_zero hdisjoint
  rw [BitVec.add_eq_or_of_and_eq_zero _ _ hdisjoint, hjoin, BitVec.toNat_and] at hsum
  omega

end Sys2Proof

namespace Sys2Proof.Machine

variable {s : State} {i : Instr} {rd rs1 : Reg} {num : CsrNum} {c : Csr} {n : Nat}

/-! ### The fields of fcsr -/

theorem State.csrOld_lt (s : State) (num : CsrNum) : s.csrOld num < 2 ^ (csrField num).2 :=
  Nat.mod_lt _ (by positivity)

/-- A CSR written back as it was read leaves fcsr as it was. -/
theorem State.csrNew_csrOld (s : State) (num : CsrNum) : s.csrNew num (s.csrOld num) = s.fcsr.toNat := by
  have hle : s.csrOld num * 2 ^ (csrField num).1 ≤ s.fcsr.toNat :=
    (Nat.mul_le_mul_right _ (Nat.mod_le _ _)).trans (Nat.div_mul_le_self _ _)
  rw [State.csrNew, Nat.mod_eq_of_lt (s.csrOld_lt num), Nat.sub_add_cancel hle]

/-- `c` is the CSR that reads and writes the field of fcsr `num` names. -/
structure Csr.IsField (c : Csr) (num : CsrNum) : Prop where
  readOnly : c.readOnly = false
  read (s : State) : (s.csrRead c).toNat = s.csrOld num
  write (s : State) (v : Word) : (s.csrWrite c v).fcsr.toNat = s.csrNew num v.toNat

theorem isField_fflags : Csr.fflags.IsField 1#12 where
  readOnly := rfl
  read s := (BitVec.toNat_setWidth_of_le (by decide)).trans (extractLsb'_toNat_eq s.fcsr 0)
  write s v := by
    change (s.frm ++ v.extractLsb' 0 5).toNat =
      s.fcsr.toNat - s.fcsr.toNat / 2 ^ 0 % 2 ^ 5 * 2 ^ 0 + v.toNat % 2 ^ 5 * 2 ^ 0
    rw [toNat_append_eq, State.frm, extractLsb'_toNat_eq, extractLsb'_toNat_eq]
    omega

theorem isField_frm : Csr.frm.IsField 2#12 where
  readOnly := rfl
  read s := (BitVec.toNat_setWidth_of_le (by decide)).trans (extractLsb'_toNat_eq s.fcsr 5)
  write s v := by
    change (v.extractLsb' 0 3 ++ s.fflags).toNat =
      s.fcsr.toNat - s.fcsr.toNat / 2 ^ 5 % 2 ^ 3 * 2 ^ 5 + v.toNat % 2 ^ 3 * 2 ^ 5
    rw [toNat_append_eq, State.fflags, extractLsb'_toNat_eq, extractLsb'_toNat_eq]
    omega

theorem isField_fcsr : Csr.fcsr.IsField 3#12 where
  readOnly := rfl
  read s := by
    change (s.fcsr.setWidth 64).toNat = s.fcsr.toNat / 2 ^ 0 % 2 ^ 8
    rw [BitVec.toNat_setWidth_of_le (by decide)]
    omega
  write s v := by
    change (v.extractLsb' 0 8).toNat =
      s.fcsr.toNat - s.fcsr.toNat / 2 ^ 0 % 2 ^ 8 * 2 ^ 0 + v.toNat % 2 ^ 8 * 2 ^ 0
    rw [extractLsb'_toNat_eq]
    omega

theorem exists_isField {cfg : Config} (hF : cfg.extF = true) (hnum : num = 1#12 ∨ num = 2#12 ∨ num = 3#12) :
    ∃ c, Csr.ofNum cfg num = some c ∧ c.IsField num := by
  rcases hnum with rfl | rfl | rfl
  · exact ⟨.fflags, if_pos hF, isField_fflags⟩
  · exact ⟨.frm, if_pos hF, isField_frm⟩
  · exact ⟨.fcsr, if_pos hF, isField_fcsr⟩

/-! ### The accesses -/

section
variable (s : State) (rd rs1 : Reg) (uimm : BitVec 5) (num : CsrNum)

theorem exec_csrrw : exec (.csrrw rd rs1 num) s =
    s.csrOp (Instr.csrrw rd rs1 num).bits num rd (some fun _ => s.readX rs1) := rfl

theorem exec_csrrs : exec (.csrrs rd rs1 num) s =
    s.csrOp (Instr.csrrs rd rs1 num).bits num rd (writeUnless (rs1 == 0#5) fun old => old ||| s.readX rs1) := rfl

theorem exec_csrrc : exec (.csrrc rd rs1 num) s =
    s.csrOp (Instr.csrrc rd rs1 num).bits num rd (writeUnless (rs1 == 0#5) fun old => old &&& ~~~s.readX rs1) := rfl

theorem exec_csrrwi : exec (.csrrwi rd uimm num) s =
    s.csrOp (Instr.csrrwi rd uimm num).bits num rd (some fun _ => uimm.setWidth 64) := rfl

theorem exec_csrrsi : exec (.csrrsi rd uimm num) s =
    s.csrOp (Instr.csrrsi rd uimm num).bits num rd (writeUnless (uimm == 0#5) fun old => old ||| uimm.setWidth 64) :=
  rfl

theorem exec_csrrci : exec (.csrrci rd uimm num) s =
    s.csrOp (Instr.csrrci rd uimm num).bits num rd
      (writeUnless (uimm == 0#5) fun old => old &&& ~~~uimm.setWidth 64) := rfl

end

/-! ### Completion -/

/-- The value of a CSR, of at most eight bits, is a value of XLEN bits. -/
theorem State.csrOld_mod_size (s : State) (num : CsrNum) : s.csrOld num % s.size = s.csrOld num := by
  have hle : s.csrOld num ≤ s.fcsr.toNat := (Nat.mod_le _ _).trans (Nat.div_le_self _ _)
  have hsize : 2 ^ 8 ≤ s.size := Nat.pow_le_pow_right (by decide) (by cases s.cfg.xlen <;> decide)
  exact Nat.mod_eq_of_lt (by have := s.fcsr.isLt; omega)

theorem sameMachine_csrWrite_writeX (s : State) (c : Csr) (v : Word) (rd : Reg) (w : Word) :
    SameMachine s ((s.csrWrite c v).writeX rd w) :=
  ⟨by simp, by simp, by simp, by simp, by simp, by simp, by simp, by simp, by simp, by simp⟩

section
variable (hc : Csr.ofNum s.cfg num = some c) (hfield : c.IsField num)
include hc hfield

/-- An access that writes nothing leaves the CSR the value it had. -/
theorem yieldsCsr_of_read (he : exec i s = s.csrOp i.bits num rd none) : YieldsCsr i s rd num (s.csrOld num) := by
  obtain ⟨⟨t, ht, hrd, honly, hadv⟩, -⟩ := yieldsX_of_csrRead (v := s.csrOld num) he hc (by rw [hfield.read])
  exact ⟨t, ht, fun h => (hrd h).trans (by exact_mod_cast s.csrOld_mod_size num),
    by rw [honly.fcsr, s.csrNew_csrOld], honly.machine, honly.regs, honly.zero, honly.fregs, honly.reservation,
    honly.memory, hadv⟩

/-- An access that writes. -/
theorem yieldsCsr_of_write {f : Word → Word} (he : exec i s = s.csrOp i.bits num rd (some f))
    (hn : (f (s.csrRead c)).toNat = n) : YieldsCsr i s rd num n := by
  have hx : exec i s = .next (((s.csrWrite c (f (s.csrRead c))).writeX rd (s.csrRead c)).retire 4) := by
    rw [he, State.csrOp, hc]
    exact if_neg (by simp [hfield.readOnly])
  refine ⟨_, hx, fun hrd => ?_, ?_, (sameMachine_csrWrite_writeX ..).retire 4, fun r hr => ?_, by simp,
    fun r _ => State.readF_congr (by simp) r, by simp, fun b => by simp,
    advanced_retire 4 (by simp) (by simp) (by simp)⟩
  · refine (U_writeX (s.csrWrite c _) (s.csrRead c) hrd).trans ?_
    rw [hfield.read, State.size, State.csrWrite_cfg]
    exact_mod_cast s.csrOld_mod_size num
  · rw [← hn, ← hfield.write]
    simp
  · exact (sameXBut_writeX _ rd _ r hr).trans (State.readX_congr (by simp) (by simp) r)

/-- A set or a clear writes nothing when `zero` holds; then `f` would write the old value. -/
theorem yieldsCsr_of_writeUnless {zero : Bool} {f : Word → Word}
    (he : exec i s = s.csrOp i.bits num rd (writeUnless zero f)) (hzero : zero = true → f (s.csrRead c) = s.csrRead c)
    (hn : (f (s.csrRead c)).toNat = n) : YieldsCsr i s rd num n := by
  cases zero with
  | false => exact yieldsCsr_of_write hc hfield he hn
  | true =>
    obtain rfl : s.csrOld num = n := by rw [← hn, hzero rfl, hfield.read]
    exact yieldsCsr_of_read hc hfield he

theorem yieldsCsr_of_set {zero : Bool} {b : Word}
    (he : exec i s = s.csrOp i.bits num rd (writeUnless zero fun old => old ||| b)) (hzero : zero = true → b = 0#64)
    (hn : b.toNat = n) : YieldsCsr i s rd num (s.csrOld num ||| n) :=
  yieldsCsr_of_writeUnless hc hfield he (fun hz => by rw [hzero hz, BitVec.or_zero])
    (by rw [BitVec.toNat_or, hfield.read, hn])

theorem yieldsCsr_of_clear {zero : Bool} {b : Word}
    (he : exec i s = s.csrOp i.bits num rd (writeUnless zero fun old => old &&& ~~~b)) (hzero : zero = true → b = 0#64)
    (hn : b.toNat = n) : YieldsCsr i s rd num (s.csrOld num - (s.csrOld num &&& n)) :=
  yieldsCsr_of_writeUnless hc hfield he (fun hz => by rw [hzero hz, BitVec.not_zero, BitVec.and_allOnes])
    (by rw [toNat_and_not, hfield.read, hn])

end

/-- Settles O32: each form is an access to a field of fcsr; where the field of a set or a clear is zero, so is its
operand, and the old value is what it would write. -/
theorem csrWrites : Obligations.CsrWrites := by
  unfold Obligations.CsrWrites
  intro s rd rs1 uimm num hF hnum
  obtain ⟨c, hc, hfield⟩ := exists_isField hF hnum
  have hrs1 (h : (rs1 == 0#5) = true) : s.readX rs1 = 0#64 := by rw [eq_of_beq h, s.readX_zero]
  have huimm (h : (uimm == 0#5) = true) : uimm.setWidth 64 = 0#64 := by rw [eq_of_beq h, BitVec.setWidth_zero]
  have hwidth : (uimm.setWidth 64).toNat = uimm.toNat := BitVec.toNat_setWidth_of_le (by decide)
  exact ⟨yieldsCsr_of_write hc hfield (exec_csrrw ..) rfl, yieldsCsr_of_set hc hfield (exec_csrrs ..) hrs1 rfl,
    yieldsCsr_of_clear hc hfield (exec_csrrc ..) hrs1 rfl, yieldsCsr_of_write hc hfield (exec_csrrwi ..) hwidth,
    yieldsCsr_of_set hc hfield (exec_csrrsi ..) huimm hwidth,
    yieldsCsr_of_clear hc hfield (exec_csrrci ..) huimm hwidth⟩

/-! ### Traps -/

/-- The numbers that name a CSR, and which of the CSRs are read-only. -/
theorem ofNum_cases {cfg : Config} (h : Csr.ofNum cfg num = some c) :
    ((num = 1#12 ∨ num = 2#12 ∨ num = 3#12) ∧ cfg.extF = true) ∧ c.readOnly = false ∨
      ((num = 0xC00#12 ∨ num = 0xC01#12 ∨ num = 0xC02#12) ∨
        (num = 0xC80#12 ∨ num = 0xC81#12 ∨ num = 0xC82#12) ∧ cfg.xlen = .rv32) ∧ c.readOnly = true := by
  simp only [← BitVec.toNat_inj]
  unfold Csr.ofNum at h
  split at h
  case h_1 hn | h_2 hn | h_3 hn =>
    obtain ⟨hF, ⟨⟩⟩ := Option.ite_none_right_eq_some.mp h
    exact .inl ⟨⟨by simp [hn], hF⟩, rfl⟩
  case h_4 hn | h_5 hn | h_6 hn =>
    cases h
    exact .inr ⟨.inl (by simp [hn]), rfl⟩
  case h_7 hn | h_8 hn | h_9 hn =>
    obtain ⟨h32, ⟨⟩⟩ := Option.ite_none_right_eq_some.mp h
    exact .inr ⟨.inr ⟨by simp [hn], Xlen.eq_rv32_of_is32 h32⟩, rfl⟩
  case h_10 => cases h

/-- The counters are read-only, whichever width they exist on. -/
theorem readOnly_of_counter {cfg : Config} (h : Csr.ofNum cfg num = some c)
    (hnum : (num = 0xC00#12 ∨ num = 0xC01#12 ∨ num = 0xC02#12) ∨ num = 0xC80#12 ∨ num = 0xC81#12 ∨ num = 0xC82#12) :
    c.readOnly = true := by
  rcases ofNum_cases h with ⟨⟨rfl | rfl | rfl, -⟩, -⟩ | ⟨-, hro⟩
  case inr => exact hro
  all_goals exact absurd hnum (by decide)

/-- An access traps when every CSR it finds is read-only and it would write. -/
theorem trapsWith_of_csrOp {f : Option (Word → Word)} (he : exec i s = s.csrOp i.bits num rd f)
    (h : ∀ c, Csr.ofNum s.cfg num = some c → c.readOnly = true ∧ f ≠ none) :
    TrapsWith i s .illegalInstruction i.bits := by
  rcases s.csrOp_cases i.bits num rd f with htrap | ⟨c, hc, hnone, -⟩ | ⟨c, g, hc, -, hwritable, -⟩
  · exact he.trans htrap
  · exact absurd hnone (h c hc).2
  · exact absurd ((h c hc).1.symm.trans hwritable) (by decide)

theorem writeUnless_ne_none {a b : BitVec 5} (f : Word → Word) (h : a ≠ b) : writeUnless (a == b) f ≠ none := by
  simp [writeUnless, h]

/-- Settles O34: a number that names no CSR, and a write to a counter; a set and a clear write exactly when their field
is not zero. -/
theorem csrTraps : Obligations.CsrTraps := by
  unfold Obligations.CsrTraps
  intro s rd rs1 uimm num
  refine ⟨fun hno => ?_, fun hnum => ?_⟩
  · have hnone (f : Option (Word → Word)) (c : Csr) (hc : Csr.ofNum s.cfg num = some c) :
        c.readOnly = true ∧ f ≠ none := absurd ((ofNum_cases hc).imp And.left And.left) hno
    exact ⟨trapsWith_of_csrOp (exec_csrrw ..) (hnone _), trapsWith_of_csrOp (exec_csrrs ..) (hnone _),
      trapsWith_of_csrOp (exec_csrrc ..) (hnone _), trapsWith_of_csrOp (exec_csrrwi ..) (hnone _),
      trapsWith_of_csrOp (exec_csrrsi ..) (hnone _), trapsWith_of_csrOp (exec_csrrci ..) (hnone _)⟩
  · have hwrite {f : Option (Word → Word)} (hf : f ≠ none) (c : Csr) (hc : Csr.ofNum s.cfg num = some c) :
        c.readOnly = true ∧ f ≠ none := ⟨readOnly_of_counter hc hnum, hf⟩
    exact ⟨trapsWith_of_csrOp (exec_csrrw ..) (hwrite (Option.some_ne_none _)),
      trapsWith_of_csrOp (exec_csrrwi ..) (hwrite (Option.some_ne_none _)),
      fun h => ⟨trapsWith_of_csrOp (exec_csrrs ..) (hwrite (writeUnless_ne_none _ h)),
        trapsWith_of_csrOp (exec_csrrc ..) (hwrite (writeUnless_ne_none _ h))⟩,
      fun h => ⟨trapsWith_of_csrOp (exec_csrrsi ..) (hwrite (writeUnless_ne_none _ h)),
        trapsWith_of_csrOp (exec_csrrci ..) (hwrite (writeUnless_ne_none _ h))⟩⟩

end Sys2Proof.Machine
end

section
/-! The values of the products, quotients and remainders (45_m.md). Each operation is read as integers once, whatever
the width; the XLEN forms and the W forms then take the reading at their width. -/

namespace Sys2Proof

variable {w : Nat} {a b : BitVec w} {x y z m n lo : Int}

/-! ### Products -/

theorem opMul_of_ofInt (ha : a = BitVec.ofInt w x) (hb : b = BitVec.ofInt w y) :
    opMul w a b = BitVec.ofInt w (x * y) := by
  rw [ha, hb, BitVec.ofInt_mul]
  rfl

theorem opMulh_of_toInt (hx : a.toInt = x) (hy : b.toInt = y) :
    opMulh w a b = BitVec.ofInt w (x * y / (2 ^ w : Nat)) := by
  rw [opMulh, hx, hy]
  push_cast
  rfl

theorem opMulhsu_of_toInt_of_toNat (hx : a.toInt = x) (hn : (b.toNat : Int) = n) :
    opMulhsu w a b = BitVec.ofInt w (x * n / (2 ^ w : Nat)) := by
  rw [opMulhsu, hx, hn]
  push_cast
  rfl

theorem opMulhu_of_toNat (hm : (a.toNat : Int) = m) (hn : (b.toNat : Int) = n) :
    opMulhu w a b = BitVec.ofInt w (m * n / (2 ^ w : Nat)) := by
  rw [opMulhu, ← hm, ← hn, ← BitVec.ofInt_natCast]
  push_cast
  rfl

/-! ### The corner cases (45_m.md R680) -/

theorem eq_zero_iff_of_toNat (hn : (b.toNat : Int) = n) : b = 0#w ↔ n = 0 := by
  rw [← hn, BitVec.toNat_eq, BitVec.toNat_ofNat, Nat.zero_mod, Int.natCast_eq_zero]

theorem toInt_allOnes_of_pos (hw : 0 < w) : (BitVec.allOnes w).toInt = -1 := by
  rw [BitVec.toInt_allOnes, if_pos hw]

theorem divOverflows_iff_of_toInt (hw : 0 < w) (hlo : (BitVec.intMin w).toInt = lo) (hx : a.toInt = x)
    (hy : b.toInt = y) : divOverflows a b = true ↔ x = lo ∧ y = -1 := by
  rw [divOverflows, Bool.and_eq_true, beq_iff_eq, beq_iff_eq, ← BitVec.toInt_inj, ← BitVec.toInt_inj, hx, hy, hlo,
    toInt_allOnes_of_pos hw]

/-! ### Quotients and remainders -/

/-- Outside the overflow the quotient of two signed values is one of them. -/
theorem toInt_ofInt_tdiv (h : ¬divOverflows a b = true) :
    (BitVec.ofInt w (a.toInt.tdiv b.toInt)).toInt = a.toInt.tdiv b.toInt := by
  have hne : a ≠ BitVec.intMin w ∨ b ≠ -1#w := by
    rw [BitVec.neg_one_eq_allOnes, ← not_and_or]
    simpa [divOverflows] using h
  rw [BitVec.toInt_ofInt, ← BitVec.toInt_sdiv, BitVec.toInt_sdiv_of_ne_or_ne a b hne]

/-- The remainder of two signed values is one of them. -/
theorem toInt_ofInt_tmod (a b : BitVec w) :
    (BitVec.ofInt w (a.toInt - b.toInt * a.toInt.tdiv b.toInt)).toInt = a.toInt.tmod b.toInt := by
  rw [← Int.tmod_def, ← BitVec.toInt_srem, BitVec.ofInt_toInt]

section
variable (hw : 0 < w) (hlo : (BitVec.intMin w).toInt = lo) (hx : a.toInt = x) (hy : b.toInt = y)
  (hn : (b.toNat : Int) = n)
include hw hlo hx hy hn

theorem toInt_opDiv :
    (opDiv w a b).toInt = if n = 0 then -1 else if x = lo ∧ y = -1 then x else x.tdiv y := by
  simp only [opDiv, eq_zero_iff_of_toNat hn, divOverflows_iff_of_toInt hw hlo hx hy]
  split_ifs with hzero hover
  · exact toInt_allOnes_of_pos hw
  · exact hlo.trans hover.1.symm
  · rw [← divOverflows_iff_of_toInt hw hlo hx hy] at hover
    rw [toInt_ofInt_tdiv hover, hx, hy]

theorem toInt_opRem :
    (opRem w a b).toInt = if n = 0 then x else if x = lo ∧ y = -1 then 0 else x.tmod y := by
  simp only [opRem, eq_zero_iff_of_toNat hn, divOverflows_iff_of_toInt hw hlo hx hy]
  split_ifs
  · exact hx
  · exact BitVec.toInt_zero
  · rw [toInt_ofInt_tmod, hx, hy]

theorem opDiv_of_toInt :
    opDiv w a b = BitVec.ofInt w (if n = 0 then -1 else if x = lo ∧ y = -1 then x else x.tdiv y) := by
  rw [← toInt_opDiv hw hlo hx hy hn, BitVec.ofInt_toInt]

/-- The dividend, the remainder of a division by zero, may be read signed or unsigned. -/
theorem opRem_of_toInt (ha : a = BitVec.ofInt w z) :
    opRem w a b = BitVec.ofInt w (if n = 0 then z else if x = lo ∧ y = -1 then 0 else x.tmod y) := by
  rw [← BitVec.ofInt_toInt (x := opRem w a b), toInt_opRem hw hlo hx hy hn, apply_ite (BitVec.ofInt w), ← hx,
    BitVec.ofInt_toInt, ha, ← apply_ite (BitVec.ofInt w)]

end

section
variable (hm : (a.toNat : Int) = m) (hn : (b.toNat : Int) = n)
include hm hn

theorem opDivu_of_toNat : opDivu w a b = BitVec.ofInt w (if n = 0 then -1 else m / n) := by
  simp only [opDivu, eq_zero_iff_of_toNat hn]
  split_ifs
  · rw [BitVec.ofInt_neg, BitVec.ofInt_ofNat, BitVec.neg_one_eq_allOnes]
  · rw [← BitVec.ofInt_natCast, Int.natCast_ediv, hm, hn]

theorem opRemu_of_toNat : opRemu w a b = BitVec.ofInt w (if n = 0 then m else m % n) := by
  simp only [opRemu, eq_zero_iff_of_toNat hn]
  split_ifs
  · rw [← hm, ofInt_toNat]
  · rw [← BitVec.ofInt_natCast, Int.natCast_emod, hm, hn]

end

end Sys2Proof

namespace Sys2Proof.Machine

/-! ### Operands and results -/

theorem State.low_toNat_cast (s : State) (r : Reg) : ((s.low s.cfg.xlen.bits r).toNat : Int) = s.U r :=
  congrArg _ (s.low_toNat r)

theorem State.low32_eq_ofInt (s : State) (r : Reg) : s.low 32 r = BitVec.ofInt 32 (s.U32 r) := by
  rw [← s.low32_toNat, ofInt_toNat]

theorem State.toInt_intMin (s : State) : (BitVec.intMin s.cfg.xlen.bits).toInt = -((s.size : Int) / 2) := by
  rw [State.size]
  cases s.cfg.xlen <;> decide

theorem sext32Int_of_toInt {a : BitVec 32} {x m : Int} (hm : (a.toNat : Int) = m) (hx : a.toInt = x) :
    sext32Int m = x := by
  rw [← hm, ← hx, BitVec.toInt_eq_toNat_bmod]
  rfl

/-- Settles O23: at the width of the operation each product, or its high half, is the one the rule gives. -/
theorem productResults : Obligations.ProductResults := by
  unfold Obligations.ProductResults
  intro s rd rs1 rs2
  exact ⟨yieldsX_of_opReg rfl (opMul_of_ofInt (s.low_eq_ofInt _ rs1) (s.low_eq_ofInt _ rs2)),
    yieldsX_of_opReg rfl (opMulh_of_toInt (s.low_toInt rs1) (s.low_toInt rs2)),
    yieldsX_of_opReg rfl (opMulhsu_of_toInt_of_toNat (s.low_toInt rs1) (s.low_toNat_cast rs2)),
    yieldsX_of_opReg rfl (opMulhu_of_toNat (s.low_toNat_cast rs1) (s.low_toNat_cast rs2)),
    fun _ => yieldsX_of_opRegW rfl
      (toInt_eq_sext32Int (opMul_of_ofInt (s.low32_eq_ofInt rs1) (s.low32_eq_ofInt rs2)))⟩

/-- Settles O24: the branches of each operation are the corner cases of its rule, read at its width. -/
theorem quotientResults : Obligations.QuotientResults := by
  unfold Obligations.QuotientResults
  refine ⟨fun s rd rs1 rs2 => ?_, fun s rd rs1 rs2 _ => ?_⟩
  · have hpos : 0 < s.cfg.xlen.bits := Nat.lt_of_lt_of_le (by decide) s.cfg.xlen.le_bits
    have hlo := s.toInt_intMin
    have hS1 := s.low_toInt rs1
    have hS2 := s.low_toInt rs2
    have hU1 := s.low_toNat_cast rs1
    have hU2 := s.low_toNat_cast rs2
    exact ⟨yieldsX_of_opReg rfl (opDiv_of_toInt hpos hlo hS1 hS2 hU2),
      yieldsX_of_opReg rfl (opDivu_of_toNat hU1 hU2),
      yieldsX_of_opReg rfl (opRem_of_toInt hpos hlo hS1 hS2 hU2 (s.low_eq_ofInt _ rs1)),
      yieldsX_of_opReg rfl (opRemu_of_toNat hU1 hU2)⟩
  · have hlo : (BitVec.intMin 32).toInt = -(2 ^ 31) := by decide
    have hS1 := s.low32_toInt rs1
    have hS2 := s.low32_toInt rs2
    have hU1 := s.low32_toNat rs1
    have hU2 := s.low32_toNat rs2
    refine ⟨yieldsX_of_opRegW rfl (toInt_opDiv (by decide) hlo hS1 hS2 hU2), yieldsX_of_opRegW rfl ?_,
      yieldsX_of_opRegW rfl (toInt_opRem (by decide) hlo hS1 hS2 hU2), yieldsX_of_opRegW rfl ?_⟩
    · rw [toInt_eq_sext32Int (opDivu_of_toNat hU1 hU2), apply_ite sext32Int]
      rfl
    · rw [toInt_eq_sext32Int (opRemu_of_toNat hU1 hU2), apply_ite sext32Int, sext32Int_of_toInt hU1 hS1]

end Sys2Proof.Machine
end

section
/-! What an atomic does at an aligned address (46_a.md R730): the checks in their order, the completion each shared
operation ends in, and that a refused write leaves memory as it was, since the access lies on one page. -/

namespace Sys2Proof.Machine

variable {s t u : State} {sz : ResSize} {a v w : Word} {n k : Nat} {kind : TrapKind} {rd : Reg}

/-! ### The checks -/

theorem State.withAligned_of_aligned {o : Out} (h : a.toNat % n = 0) : s.withAligned a n o = o := if_pos h

theorem State.withAligned_of_misaligned {o : Out} (h : a.toNat % n ≠ 0) :
    s.withAligned a n o = .next (s.trap .misalignedFault a) := if_neg h

theorem State.withRead_of_accepts {f : Word → Out} (h : s.Accepts .read a.toNat n) :
    s.withRead a n f = f (s.loadValue a n) := by
  rw [State.withRead, accepts_iff.mpr h]

theorem State.withRead_of_refuses {f : Word → Out} (h : s.Refuses .read a.toNat n kind) :
    s.withRead a n f = .next (s.trap kind a) := by
  rw [State.withRead, refuses_iff.mpr h]

theorem State.withWrite_of_accepts {f : State → Out} (h : s.Accepts .write a.toNat n) :
    s.withWrite a n v f = f (s.storeValue a n v) := by
  rw [State.withWrite, accepts_iff.mpr h]

/-! ### An aligned access lies on one page -/

theorem ResSize.bytes_pos (sz : ResSize) : 0 < sz.bytes := by cases sz <;> decide

/-- A page holds a whole number of aligned accesses. -/
theorem pageOf_add_of_aligned {b : Nat} (h : b % sz.bytes = 0) (hk : k < sz.bytes) : pageOf (b + k) = pageOf b := by
  unfold pageOf
  cases sz <;> simp only [ResSize.bytes] at h hk <;> omega

/-- An aligned access does not wrap around the address space. -/
theorem byteAddr_of_aligned {xl : Xlen} (ha : a.toNat < 2 ^ xl.bits) (h : a.toNat % sz.bytes = 0)
    (hk : k < sz.bytes) : byteAddr xl a k = a.toNat + k := by
  rw [byteAddr_eq]
  apply Nat.mod_eq_of_lt
  cases xl <;> cases sz <;> simp only [Xlen.bits, ResSize.bytes] at ha h hk ⊢ <;> omega

theorem onFirstPage_of_aligned {xl : Xlen} {b : Nat} (ha : a.toNat < 2 ^ xl.bits) (h : a.toNat % sz.bytes = 0)
    (hb : b ∈ span xl a sz.bytes) : onFirstPage xl a b = true := by
  obtain ⟨k, hk, rfl⟩ := mem_span.mp hb
  rw [onFirstPage, byteAddr_of_aligned ha h hk, byteAddr_of_aligned ha h sz.bytes_pos, Nat.add_zero,
    pageOf_add_of_aligned h hk, beq_self_eq_true]

/-- A refused aligned write has a refused byte on its only page, so it writes nothing (20_memory.md R162). -/
theorem refusedStore_of_aligned (ha : a.toNat < s.size) (h : a.toNat % sz.bytes = 0)
    (hr : s.refusal .write a sz.bytes = some kind) : s.refusedStore a sz.bytes v = s := by
  refine if_neg fun hsplit => ?_
  have hpage : (span s.cfg.xlen a sz.bytes).filter (onFirstPage s.cfg.xlen a) = span s.cfg.xlen a sz.bytes :=
    List.filter_eq_self.mpr fun _ hb => onFirstPage_of_aligned ha h hb
  rw [State.splitRefused, hpage, Bool.and_eq_true, List.all_eq_true] at hsplit
  have hnone : s.refusal .write a sz.bytes = none :=
    List.findSome?_eq_none_iff.mpr fun b hb => Option.isNone_iff_eq_none.mp (hsplit.2 b hb)
  exact absurd (hnone.symm.trans hr) (Option.some_ne_none kind).symm

theorem State.withWrite_of_refuses_of_aligned {f : State → Out} (ha : a.toNat < s.size)
    (h : a.toNat % sz.bytes = 0) (hr : s.Refuses .write a.toNat sz.bytes kind) :
    s.withWrite a sz.bytes v f = .next (s.trap kind a) := by
  have hrefusal := refuses_iff.mpr hr
  rw [State.withWrite, hrefusal, refusedStore_of_aligned ha h hrefusal]

/-! ### Completion -/

/-- What a completing LR, SC or AMO shares: `x[rd]` is `v` modulo 2^XLEN and the sequential advance, with nothing else
changed but the bytes of memory and the reservation. -/
structure CompletesX (s t : State) (rd : Reg) (v : Int) : Prop where
  result : rd ≠ 0#5 → t.U rd = v % s.size
  machine : SameMachine s t
  regs : SameXBut s t [rd]
  zero : t.readX 0#5 = 0
  fregs : SameFBut s t []
  fcsr : t.fcsr = s.fcsr
  advanced : Advanced s t 4

theorem SameMachine.trans (hst : SameMachine s t) (htu : SameMachine t u) : SameMachine s u :=
  ⟨htu.cfg.trans hst.cfg, htu.stopped.trans hst.stopped, htu.budget.trans hst.budget,
    htu.syscalls.trans hst.syscalls, htu.debugHandler.trans hst.debugHandler, htu.run.trans hst.run,
    htu.cap.trans hst.cap, htu.unmapped.trans hst.unmapped, htu.checkFirst.trans hst.checkFirst,
    htu.pages.trans hst.pages⟩

/-- A register write and the retirement, after bytes of memory and the reservation have changed. -/
theorem completesX_of_writeX {r : Option Reservation} {m : Memory} {V : Int}
    (hm : SameMachine s { s with mem := m }) (hv : (w.toNat : Int) % s.size = V % s.size) :
    CompletesX s (({ s with reservation := r, mem := m }.writeX rd w).retire 4) rd V := by
  have hx := onlyX_writeX { s with reservation := r, mem := m } rd w
  have hr : SameMachine s { s with reservation := r, mem := m } :=
    ⟨rfl, rfl, rfl, rfl, rfl, rfl, hm.cap, hm.unmapped, hm.checkFirst, hm.pages⟩
  refine ⟨fun hrd => ?_, ?_, hx.regs, hx.zero, hx.fregs, hx.fcsr, ?_⟩
  · rw [← hv]
    exact U_writeX _ w hrd
  · exact (hr.trans hx.machine).retire 4
  · exact advanced_retire 4 (by simp) (by simp) (by simp)

theorem Stored.of_mem {b N : Nat} (h : Stored s u b n N) (hm : t.mem = u.mem) : Stored s t b n N := by
  unfold Stored
  rwa [hm]

/-- The bytes stored are those of the value modulo their number. -/
theorem stored_of_mod {b N : Nat} (h : Stored s t b n (N % 256 ^ n)) : Stored s t b n N := by
  refine ⟨fun k hk => ?_, h.2⟩
  rw [h.1 k hk]
  apply BitVec.eq_of_toNat_eq
  obtain ⟨d, rfl⟩ := Nat.exists_eq_add_of_lt hk
  rw [BitVec.toNat_ofNat, BitVec.toNat_ofNat, Nat.add_assoc, Nat.pow_add, Nat.mod_mul_right_div_self, Nat.pow_succ]
  exact Nat.mod_mod_of_dvd _ (Nat.dvd_mul_left _ _)

end Sys2Proof.Machine
end

section
/-! The operations of the AMOs (46_a.md R737 to R745), read as integers once, whatever the width. -/

namespace Sys2Proof

variable {w : Nat} {a b : BitVec w} {m n : Nat}

/-- Equal keys are keys of the same value, so a strict comparison chooses as the other one does. -/
theorem ite_lt_eq_ite_le {α β : Type} [LinearOrder β] {f : α → β} (hf : ∀ {x y}, f x = f y → x = y) (a b : α) :
    (if f a < f b then a else b) = if f a ≤ f b then a else b := by
  rcases lt_trichotomy (f a) (f b) with hlt | heq | hgt
  · rw [if_pos hlt, if_pos hlt.le]
  · rw [hf heq, ite_self, ite_self]
  · rw [if_neg hgt.not_gt, if_neg hgt.not_ge]

theorem opSwap_of_toNat (hb : b.toNat = n) : opSwap w a b = BitVec.ofInt w (n : Int) := by
  rw [← hb, ofInt_toNat]
  rfl

theorem opAdd_of_toNat (ha : a.toNat = m) (hb : b.toNat = n) :
    opAdd w a b = BitVec.ofInt w ((m + n : Nat) : Int) := by
  rw [← ha, ← hb, Int.natCast_add]
  exact opAdd_of_ofInt (ofInt_toNat a).symm (ofInt_toNat b).symm

section
variable (ha : a.toNat = m) (hb : b.toNat = n)
include ha hb

theorem opMin_of_toNat :
    opMin w a b = BitVec.ofInt w ((if (m : Int).bmod (2 ^ w) ≤ (n : Int).bmod (2 ^ w) then m else n : Nat) : Int) := by
  rw [← ha, ← hb, ← BitVec.toInt_eq_toNat_bmod, ← BitVec.toInt_eq_toNat_bmod, ← apply_ite BitVec.toNat, ofInt_toNat,
    ← ite_lt_eq_ite_le BitVec.eq_of_toInt_eq]
  simp only [opMin, BitVec.slt_iff_toInt_lt]

theorem opMax_of_toNat :
    opMax w a b = BitVec.ofInt w ((if (m : Int).bmod (2 ^ w) ≤ (n : Int).bmod (2 ^ w) then n else m : Nat) : Int) := by
  rw [← ha, ← hb, ← BitVec.toInt_eq_toNat_bmod, ← BitVec.toInt_eq_toNat_bmod, ← apply_ite BitVec.toNat, ofInt_toNat]
  simp only [opMax, BitVec.slt_iff_toInt_lt, ← not_le, ite_not]

theorem opMinu_of_toNat : opMinu w a b = BitVec.ofInt w ((if m ≤ n then m else n : Nat) : Int) := by
  rw [← ha, ← hb, ← apply_ite BitVec.toNat, ofInt_toNat, ← ite_lt_eq_ite_le BitVec.eq_of_toNat_eq]
  simp only [opMinu, BitVec.ult_iff_toNat_lt]

theorem opMaxu_of_toNat : opMaxu w a b = BitVec.ofInt w ((if m ≤ n then n else m : Nat) : Int) := by
  rw [← ha, ← hb, ← apply_ite BitVec.toNat, ofInt_toNat]
  simp only [opMaxu, BitVec.ult_iff_toNat_lt, ← not_le, ite_not]

end

end Sys2Proof
end

section
/-! LR, SC and the AMOs complete with their results or trap (46_a.md R730 to R754). -/

namespace Sys2Proof.Machine

variable {s : State} {i : Instr} {sz : ResSize} {op : WidthOp} {rd rs1 rs2 : Reg} {kind : TrapKind}
  {n new : Nat} {old V : Int}

/-! ### Values -/

/-- The value an LR.W or an AMO.W loads. -/
theorem extend_word_toNat (s : State) (a : Word) :
    ((ResSize.word.extend s.cfg.xlen (s.loadValue a 4)).toNat : Int) % s.size =
      (s.bytesAt a.toNat 4 : Int).bmod (2 ^ 32) % s.size := by
  rw [ResSize.extend, Xlen.sext_toNat _ _ (by decide), BitVec.toInt_setWidth, loadValue_toNat s a (by decide)]
  exact Int.emod_emod ..

/-- The value an LR.D or an AMO.D loads. -/
theorem extend_double_toNat (s : State) (a : Word) :
    ((ResSize.double.extend s.cfg.xlen (s.loadValue a 8)).toNat : Int) % s.size =
      (s.bytesAt a.toNat 8 : Int) % s.size := by
  rw [ResSize.extend, loadValue_toNat s a (by decide)]

/-! ### LR -/

/-- An LR that is aligned and whose read is accepted completes with the reservation set. -/
theorem completesX_loadReserved (hal : s.N rs1 % sz.bytes = 0) (hr : s.Accepts .read (s.N rs1) sz.bytes)
    (hold : ((sz.extend s.cfg.xlen (s.loadValue (s.readX rs1) sz.bytes)).toNat : Int) % s.size = V % s.size) :
    ∃ t, s.loadReserved sz rd rs1 = .next t ∧ CompletesX s t rd V ∧
      t.reservation = some { addr := s.readX rs1, size := sz } ∧ SameMem s t := by
  refine ⟨_, ?_, completesX_of_writeX (r := some { addr := s.readX rs1, size := sz }) (m := s.mem) (.refl s) hold,
    by simp, fun b => by simp⟩
  exact (State.withAligned_of_aligned hal).trans (State.withRead_of_accepts hr)

/-- Settles O35: an LR is the read, then the reservation and rd. -/
theorem loadReservedResults : Obligations.LoadReservedResults := by
  unfold Obligations.LoadReservedResults
  intro s rd rs1 aq rl
  refine ⟨fun hal hr => ?_, fun h64 hal hr => ?_⟩
  · obtain ⟨t, he, hc, hres, hmem⟩ :=
      completesX_loadReserved (sz := .word) (rd := rd) hal hr (extend_word_toNat s (s.readX rs1))
    exact ⟨t, he, hc.result, hres, hc.machine, hc.regs, hc.zero, hc.fregs, hc.fcsr, hmem, hc.advanced⟩
  · obtain ⟨t, he, hc, hres, hmem⟩ :=
      completesX_loadReserved (sz := .double) (rd := rd) hal hr (extend_double_toNat s (s.readX rs1))
    have hlt : s.bytesAt (s.N rs1) 8 < s.size := by
      rw [State.size, h64]
      exact bytesAt_lt s (s.N rs1) 8
    have hvalue : (s.bytesAt (s.N rs1) 8 : Int) % s.size = s.bytesAt (s.N rs1) 8 := by
      rw [← Int.natCast_emod, Nat.mod_eq_of_lt hlt]
    exact ⟨t, he, fun hrd => (hc.result hrd).trans hvalue, hres, hc.machine, hc.regs, hc.zero, hc.fregs, hc.fcsr, hmem,
      hc.advanced⟩

/-! ### SC -/

theorem State.one_mod_size (s : State) : (1 : Int) % s.size = 1 := by
  rw [State.size]
  cases s.cfg.xlen <;> decide

/-- An SC that finds its own reservation, and whose write is accepted, stores and gives 0. -/
theorem completesX_storeConditional (hal : s.N rs1 % sz.bytes = 0)
    (hres : s.reservation = some { addr := s.readX rs1, size := sz }) (hw : s.Accepts .write (s.N rs1) sz.bytes) :
    ∃ t, s.storeConditional sz rd rs1 rs2 = .next t ∧ CompletesX s t rd 0 ∧ t.reservation = none ∧
      Stored s t (s.N rs1) sz.bytes (s.N rs2) := by
  refine ⟨_, ?_, completesX_of_writeX (r := none) (w := 0)
    (sameMachine_storeValue s (s.readX rs1) sz.bytes (s.readX rs2)) rfl, by simp,
    (stored_storeValue s (s.readX rs1) sz.bytes_le (s.readX rs2)).of_mem (by simp)⟩
  exact (State.withAligned_of_aligned hal).trans ((if_pos hres).trans
    (State.withWrite_of_accepts (s := { s with reservation := none }) hw))

/-- An SC that does not find its own reservation gives 1 and makes no access. -/
theorem completesX_storeConditional_of_ne (hal : s.N rs1 % sz.bytes = 0)
    (hres : s.reservation ≠ some { addr := s.readX rs1, size := sz }) :
    ∃ t, s.storeConditional sz rd rs1 rs2 = .next t ∧ CompletesX s t rd 1 ∧ t.reservation = none ∧ SameMem s t := by
  refine ⟨_, ?_, completesX_of_writeX (r := none) (m := s.mem) (w := 1) (.refl s) rfl, by simp, fun b => by simp⟩
  exact (State.withAligned_of_aligned hal).trans (if_neg hres)

/-- An SC whose write is refused traps with its reservation gone. -/
theorem storeConditional_of_refuses (hal : s.N rs1 % sz.bytes = 0)
    (hres : s.reservation = some { addr := s.readX rs1, size := sz })
    (hw : s.Refuses .write (s.N rs1) sz.bytes kind) :
    s.storeConditional sz rd rs1 rs2 = .next ({ s with reservation := none }.trap kind (s.readX rs1)) :=
  (State.withAligned_of_aligned hal).trans ((if_pos hres).trans
    (State.withWrite_of_refuses_of_aligned (s := { s with reservation := none }) (s.readX_lt rs1) hal hw))

/-- Settles O36: the reservation decides between the store and the failure, and is gone in every case. -/
theorem storeConditionalResults : Obligations.StoreConditionalResults := by
  unfold Obligations.StoreConditionalResults
  intro s rd rs1 rs2 aq rl i sz hi hal
  have hexec : exec i s = s.storeConditional sz rd rs1 rs2 := by
    rcases hi with ⟨rfl, rfl⟩ | ⟨-, rfl, rfl⟩ <;> rfl
  refine ⟨fun hres hw => ?_, fun hres => ?_, fun kind hres hw => ?_⟩
  · obtain ⟨t, he, hc, hnone, hst⟩ := completesX_storeConditional (rd := rd) (rs2 := rs2) hal hres hw
    exact ⟨t, hexec.trans he, hc.result, hnone, hst, hc.machine, hc.regs, hc.zero, hc.fregs, hc.fcsr, hc.advanced⟩
  · obtain ⟨t, he, hc, hnone, hmem⟩ := completesX_storeConditional_of_ne (rd := rd) (rs2 := rs2) hal hres
    exact ⟨t, hexec.trans he, fun hrd => (hc.result hrd).trans s.one_mod_size, hnone, hmem, hc.machine, hc.regs,
      hc.zero, hc.fregs, hc.fcsr, hc.advanced⟩
  · exact hexec.trans (storeConditional_of_refuses hal hres hw)

/-! ### AMO -/

theorem pow_256_eq (n : Nat) : 256 ^ n = 2 ^ (8 * n) := (Nat.pow_mul 2 8 n).symm

/-- The operation of an AMO runs at the width of its access. -/
theorem combine_toNat (sz : ResSize) (op : WidthOp) (t v : Word) :
    (sz.combine op t v).toNat = (op (8 * sz.bytes) (t.setWidth _) (v.setWidth _)).toNat := by
  cases sz with
  | word => exact BitVec.toNat_setWidth_of_le (by decide)
  | double => simp [ResSize.combine, ResSize.bytes]

/-- The value an AMO operates on, at the width of its access. -/
def State.loaded (s : State) (sz : ResSize) (rs1 : Reg) : BitVec (8 * sz.bytes) :=
  (s.loadValue (s.readX rs1) sz.bytes).setWidth _

theorem State.loaded_toNat (s : State) (sz : ResSize) (rs1 : Reg) :
    (s.loaded sz rs1).toNat = s.bytesAt (s.N rs1) sz.bytes := by
  have hlt := bytesAt_lt s (s.N rs1) sz.bytes
  rw [pow_256_eq] at hlt
  rw [State.loaded, BitVec.toNat_setWidth, loadValue_toNat s _ sz.bytes_le]
  exact Nat.mod_eq_of_lt hlt

/-- A meaning that is a store, a register write and the retirement. -/
theorem yieldsAmo_of_store {a v w : Word} (h : exec i s = .next (((s.storeValue a n v).writeX rd w).retire 4))
    (hn : n ≤ 8) (hold : (w.toNat : Int) % s.size = old % s.size) (hnew : v.toNat = new % 256 ^ n) :
    YieldsAmo i s rd a.toNat n old new := by
  have hc := completesX_of_writeX (r := s.reservation) (rd := rd) (sameMachine_storeValue s a n v) hold
  have hstored := stored_storeValue s a hn v
  rw [hnew] at hstored
  exact ⟨_, h, hc.result, (stored_of_mod hstored).of_mem (by simp), hc.machine, hc.regs, hc.zero, hc.fregs, hc.fcsr,
    by simp, hc.advanced⟩

theorem State.amo_of_accepts (hal : s.N rs1 % sz.bytes = 0) (hr : s.Accepts .read (s.N rs1) sz.bytes)
    (hw : s.Accepts .write (s.N rs1) sz.bytes) :
    let old := s.loadValue (s.readX rs1) sz.bytes
    s.amo sz op rd rs1 rs2 = .next (((s.storeValue (s.readX rs1) sz.bytes (sz.combine op old (s.readX rs2))).writeX rd
      (sz.extend s.cfg.xlen old)).retire 4) :=
  (State.withAligned_of_aligned hal).trans ((State.withRead_of_accepts hr).trans (State.withWrite_of_accepts hw))

/-- An AMO whose accesses are accepted completes: `hold` is about what it loads, `hnew` about what it stores. -/
theorem yieldsAmo_of_amo (h : exec i s = s.amo sz op rd rs1 rs2) (hal : s.N rs1 % sz.bytes = 0)
    (hr : s.Accepts .read (s.N rs1) sz.bytes) (hw : s.Accepts .write (s.N rs1) sz.bytes)
    (hold : ((sz.extend s.cfg.xlen (s.loadValue (s.readX rs1) sz.bytes)).toNat : Int) % s.size = old % s.size)
    (hnew : op (8 * sz.bytes) (s.loaded sz rs1) (s.low _ rs2) = BitVec.ofInt _ (new : Int)) :
    YieldsAmo i s rd (s.N rs1) sz.bytes old new := by
  refine yieldsAmo_of_store (h.trans (State.amo_of_accepts hal hr hw)) sz.bytes_le hold ?_
  rw [combine_toNat, pow_256_eq, ← BitVec.toNat_ofNat, ← BitVec.ofInt_natCast, ← hnew]
  rfl

/-- Settles O37: the operation runs on the word read and the low word of `x[rs2]`. -/
theorem wordAtomicResults : Obligations.WordAtomicResults := by
  unfold Obligations.WordAtomicResults
  intro s rd rs1 rs2 aq rl hal hr hw t v
  have ha : (s.loaded .word rs1).toNat = t := s.loaded_toNat .word rs1
  have hb : (s.low 32 rs2).toNat = v := BitVec.toNat_setWidth ..
  have yields {i : Instr} {op : WidthOp} {new : Nat} (h : exec i s = s.amo .word op rd rs1 rs2)
      (hnew : op 32 (s.loaded .word rs1) (s.low 32 rs2) = BitVec.ofInt 32 (new : Int)) :
      YieldsAmo i s rd (s.N rs1) 4 ((t : Int).bmod (2 ^ 32)) new :=
    yieldsAmo_of_amo h hal hr hw (extend_word_toNat s (s.readX rs1)) hnew
  exact ⟨yields rfl (opSwap_of_toNat hb), yields rfl (opAdd_of_toNat ha hb),
    yields rfl (opXor_of_toNat ha hb), yields rfl (opAnd_of_toNat ha hb), yields rfl (opOr_of_toNat ha hb),
    yields rfl (opMin_of_toNat ha hb), yields rfl (opMax_of_toNat ha hb), yields rfl (opMinu_of_toNat ha hb),
    yields rfl (opMaxu_of_toNat ha hb)⟩

/-- Settles O38: the operation runs on the doubleword read and all of `x[rs2]`. -/
theorem doubleAtomicResults : Obligations.DoubleAtomicResults := by
  unfold Obligations.DoubleAtomicResults
  intro s rd rs1 rs2 aq rl _ hal hr hw t v
  have ha : (s.loaded .double rs1).toNat = t := s.loaded_toNat .double rs1
  have hb : (s.low 64 rs2).toNat = v := BitVec.toNat_setWidth_of_le le_rfl
  have yields {i : Instr} {op : WidthOp} {new : Nat} (h : exec i s = s.amo .double op rd rs1 rs2)
      (hnew : op 64 (s.loaded .double rs1) (s.low 64 rs2) = BitVec.ofInt 64 (new : Int)) :
      YieldsAmo i s rd (s.N rs1) 8 (t : Int) new :=
    yieldsAmo_of_amo h hal hr hw (extend_double_toNat s (s.readX rs1)) hnew
  exact ⟨yields rfl (opSwap_of_toNat hb), yields rfl (opAdd_of_toNat ha hb),
    yields rfl (opXor_of_toNat ha hb), yields rfl (opAnd_of_toNat ha hb), yields rfl (opOr_of_toNat ha hb),
    yields rfl (opMin_of_toNat ha hb), yields rfl (opMax_of_toNat ha hb), yields rfl (opMinu_of_toNat ha hb),
    yields rfl (opMaxu_of_toNat ha hb)⟩

/-! ### Traps -/

theorem exec_of_amoAccess (h : i.amoAccess = some (sz, rs1)) :
    ∃ op rd rs2, exec i s = s.amo sz op rd rs1 rs2 := by
  unfold Instr.amoAccess at h
  split at h
  case h_19 => cases h
  all_goals
    obtain ⟨⟩ := h
    exact ⟨_, _, _, rfl⟩

theorem exec_of_scAccess (h : i.scAccess = some (sz, rs1)) :
    ∃ rd rs2, exec i s = s.storeConditional sz rd rs1 rs2 := by
  unfold Instr.scAccess at h
  split at h
  case h_3 => cases h
  all_goals
    obtain ⟨⟩ := h
    exact ⟨_, _, rfl⟩

/-- An LR and an AMO check the alignment, then the read. -/
theorem exec_of_atomicRead (h : i.atomicRead = some (sz, rs1)) :
    ∃ k, exec i s = s.withAligned (s.readX rs1) sz.bytes (s.withRead (s.readX rs1) sz.bytes k) := by
  unfold Instr.atomicRead at h
  split at h
  case h_21 => cases h
  all_goals
    obtain ⟨⟩ := h
    exact ⟨_, rfl⟩

/-- Settles O39: each check that fails ends the instruction before anything is written. -/
theorem atomicTraps : Obligations.AtomicTraps := by
  unfold Obligations.AtomicTraps
  intro i s sz rs1 kind
  refine ⟨fun hi hal => ?_, fun hi hal hr => ?_, fun hi hal hr hw => ?_⟩
  · rcases hi with hread | hsc
    · obtain ⟨k, he⟩ := exec_of_atomicRead (s := s) hread
      exact he.trans (State.withAligned_of_misaligned hal)
    · obtain ⟨rd, rs2, he⟩ := exec_of_scAccess (s := s) hsc
      exact he.trans (State.withAligned_of_misaligned hal)
  · obtain ⟨k, he⟩ := exec_of_atomicRead (s := s) hi
    exact he.trans ((State.withAligned_of_aligned hal).trans (State.withRead_of_refuses hr))
  · obtain ⟨op, rd, rs2, he⟩ := exec_of_amoAccess (s := s) hi
    exact he.trans ((State.withAligned_of_aligned hal).trans
      ((State.withRead_of_accepts hr).trans (State.withWrite_of_refuses_of_aligned (s.readX_lt rs1) hal hw)))

end Sys2Proof.Machine
end

section
/-! What accrues flags (47_f.md R804; 10_state.md R71), and what an instruction that ends in a trap has changed
(60_exceptions.md R1110 to R1112; 20_memory.md R162, R195). -/

namespace Sys2Proof.Machine

variable {s t : State} {a v : Word} {n : Nat} {kind : TrapKind}

/-! ### Flags -/

/-- From `s` to `t` no exception flag is cleared and frm is kept. -/
def Accrues (s t : State) : Prop := t.frm = s.frm ∧ s.fflags &&& ~~~t.fflags = 0#5

theorem accrues_of_fcsr_eq (h : t.fcsr = s.fcsr) : Accrues s t := by
  have hfl : t.fflags = s.fflags := congrArg (BitVec.extractLsb' 0 5) h
  exact ⟨congrArg (BitVec.extractLsb' 5 3) h, by rw [hfl]; exact BitVec.and_not_self _⟩

theorem accrues_setFlags (h : t.fcsr = s.fcsr) (fl : FFlags) : Accrues s (t.setFlags fl) := by
  have hfl : t.fflags = s.fflags := congrArg (BitVec.extractLsb' 0 5) h
  refine ⟨(t.frm_setFlags fl).trans (congrArg (BitVec.extractLsb' 5 3) h), ?_⟩
  rw [t.fflags_setFlags, hfl, BitVec.not_or, ← BitVec.and_assoc, BitVec.and_not_self]
  exact BitVec.zero_and

/-- Settles O16: two shapes accrue flags, those of the Zicsr instructions and the host calls are excluded, and the
others keep fcsr. -/
theorem flagsOnlyAccrue : Obligations.FlagsOnlyAccrue := by
  unfold Obligations.FlagsOnlyAccrue
  intro i s t hn hc he
  have hs : Shape i s (.next t) := he ▸ exec_shape i s
  cases hs with
  | flagsF _ rd v fl => exact accrues_setFlags (t := s.writeF rd v) rfl fl
  | flagsX _ rd v fl => exact accrues_setFlags (s.writeX_fcsr rd v) fl
  | csrRead _ ha | csrWrite _ ha => simp [ha] at hc
  | host hh | hostFatal hh => simp [hh] at hn
  | trap | refused | plain | writeX | writeF | store | amo | jump | reserve | scFail | scStore | scRefused =>
    exact accrues_of_fcsr_eq (by simp)

/-! ### What a refused store leaves -/

/-- Page `p` of `m'` may differ from that of `m` in its bytes, unless `m` checks every byte of a write first; all else
is the same. -/
structure Memory.SameButPage (m m' : Memory) (p : Nat) : Prop where
  cap : m'.cap = m.cap
  unmapped : m'.unmapped = m.unmapped
  checkFirst : m'.checkFirst = m.checkFirst
  pages : m'.pages = m.pages
  same : m.checkFirst = true → m' = m
  bytes : ∀ b, m'.byte b ≠ m.byte b → pageOf b = p

theorem Memory.SameButPage.refl (m : Memory) (p : Nat) : m.SameButPage m p :=
  ⟨rfl, rfl, rfl, rfl, fun _ => rfl, fun _ h => absurd rfl h⟩

/-- Beside memory, only the count of free values may differ. -/
theorem State.refusedStore_eq (s : State) (a : Word) (n : Nat) (v : Word) :
    s.refusedStore a n v = { s with mem := (s.refusedStore a n v).mem, draws := (s.refusedStore a n v).draws } := by
  unfold State.refusedStore
  split <;> rfl

theorem sameButPage_refusedStore (ha : a.toNat < s.size) :
    s.mem.SameButPage (s.refusedStore a n v).mem (pageOf a.toNat) := by
  have hfirst : byteAddr s.cfg.xlen a 0 = a.toNat := (byteAddr_eq ..).trans (Nat.mod_eq_of_lt ha)
  unfold State.refusedStore
  split
  · next hsplit =>
    have hcf : s.mem.checkFirst = false := by simpa using (Bool.and_eq_true_iff.mp hsplit).1
    dsimp only
    split
    · refine ⟨by simp, by simp, by simp, by simp, fun h => by simp [hcf] at h, fun b hb => ?_⟩
      by_contra hp
      refine hb (Memory.byte_writeAll_of_notMem _ fun w hw hwb => hp ?_)
      have hpage : pageOf w.1 = pageOf (byteAddr s.cfg.xlen a 0) := beq_iff_eq.mp (List.mem_filter.mp hw).2
      rw [← hwb, hpage, hfirst]
    · exact .refl _ _
  · exact .refl _ _

/-- The kinds a byte of a write is refused with (20_memory.md R171, R173, R174). -/
theorem kind_of_write_byteRefusal {m : Memory} {b : Nat} (h : m.byteRefusal .write b = some kind) :
    kind = .writeFault ∨ kind = .outOfBoundsFault := by
  unfold Memory.byteRefusal at h
  split at h
  · exact .inr (Option.some.inj h).symm
  · split at h
    · exact .inr (Option.some.inj h).symm
    · split at h
      · cases h
      · exact .inl (Option.some.inj h).symm

theorem kind_of_write_refusal (h : s.refusal .write a n = some kind) :
    kind = .writeFault ∨ kind = .outOfBoundsFault := by
  obtain ⟨k, -, -, hk⟩ := refuses_iff.mp h
  exact kind_of_write_byteRefusal hk

/-! ### Traps -/

/-- The memory after a refused store: the kind is one of a write, and only the page of the address may differ. -/
theorem sameButPage_of_refusal (ha : a.toNat < s.size) (hr : s.refusal .write a n = some kind) :
    s.mem.SameButPage (s.refusedStore a n v).mem (pageOf a.toNat) ∧
      (kind ≠ .writeFault → kind ≠ .outOfBoundsFault → (s.refusedStore a n v).mem = s.mem) :=
  ⟨sameButPage_refusedStore ha, fun hw ho => ((kind_of_write_refusal hr).elim hw ho).elim⟩

/-- Settles O11: a trap keeps the state, but for what a refused store leaves and for the reservation an SC clears. -/
theorem trapsArePrecise : Obligations.TrapsArePrecise := by
  unfold Obligations.TrapsArePrecise
  intro i s t kind value hn hrun he htrap
  have hs : Shape i s (.next t) := he ▸ exec_shape i s
  cases hs with
  | trap =>
    exact ⟨rfl, fun _ => rfl, fun _ => .inl rfl, rfl, rfl, rfl, rfl, fun _ => rfl, fun _ _ => rfl,
      fun _ hb => absurd rfl hb⟩
  | refused a n v _ ha _ hr =>
    obtain ⟨⟩ := htrap
    obtain ⟨hm, hkind⟩ := sameButPage_of_refusal (v := v) ha hr
    refine ⟨?_, fun _ => by simp, fun _ => .inl (by simp), hm.cap, hm.unmapped, hm.checkFirst, hm.pages, hm.same,
      hkind, hm.bytes⟩
    rw [s.refusedStore_eq]
    rfl
  | scRefused hc a n v _ ha _ hr =>
    obtain ⟨⟩ := htrap
    obtain ⟨hm, hkind⟩ := sameButPage_of_refusal (s := { s with reservation := none }) (v := v) ha hr
    refine ⟨?_, fun h => by simp [hc] at h, fun _ => .inr (by simp), hm.cap, hm.unmapped, hm.checkFirst, hm.pages,
      hm.same, hkind, hm.bytes⟩
    rw [State.refusedStore_eq]
    rfl
  | host hh | hostFatal hh => simp [hh] at hn
  | plain | writeX | writeF | flagsF | flagsX | store | amo | jump | reserve | scFail | scStore | csrRead | csrWrite =>
    simp [hrun] at htrap

end Sys2Proof.Machine
end

section
/-! The compressed instructions (49_c.md): the primed registers and the immediates of each form, then its results, by
the shared operations of its 32-bit expansion. -/

namespace Sys2Proof

/-! ### Registers and immediates -/

theorem prime_eq_full (r : CReg) : Machine.prime r = r.full := by
  revert r
  decide

/-- An immediate sign-extended on its way through a wider field. -/
theorem signExtend_signExtend_of_le {n k : Nat} (imm : BitVec n) (w : Nat) (h : n ≤ k) :
    (imm.signExtend k).signExtend w = imm.signExtend w :=
  congrArg (BitVec.ofInt w) (BitVec.toInt_signExtend_of_le h)

/-- A scaled unsigned offset, held in a 12-bit immediate whose sign bit is 0 (49_c.md R1002). -/
theorem toInt_scaled {n k : Nat} (u : BitVec n) (h : n + k ≤ 11) :
    ((u ++ 0#k).setWidth 12).toInt = u.toNat * 2 ^ k := by
  have hlt : (u ++ 0#k).toNat < 2 ^ 11 := (u ++ 0#k).isLt.trans_le (Nat.pow_le_pow_right (by decide) h)
  have hval : ((u ++ 0#k).setWidth 12).toNat = u.toNat * 2 ^ k := by
    rw [BitVec.toNat_setWidth, Nat.mod_eq_of_lt (by omega), toNat_append_eq, BitVec.toNat_ofNat, Nat.zero_mod,
      Nat.add_zero]
  rw [BitVec.toInt_eq_toNat_of_lt (by rw [BitVec.toNat_setWidth]; omega), hval]
  push_cast
  rfl

/-- The offset of C.ADDI16SP (49_c.md R1017). -/
theorem toInt_signExtend_append_zero {n k : Nat} (imm : BitVec n) (h : n + k ≤ 12) :
    ((imm ++ 0#k).signExtend 12).toInt = imm.toInt * 2 ^ k := by
  rw [BitVec.toInt_signExtend_of_le h, BitVec.toInt_append_zero, Int.mul_comm]

end Sys2Proof

namespace Sys2Proof.Machine

variable {s : State} {i : Instr} {rd : Reg} {V W : Int} {len : Nat}

/-! ### Computation -/

theorem State.U_x0 (s : State) : s.U 0#5 = 0 := by simp [State.U]

/-- A write to x0 is discarded, whatever the value (10_state.md R52). -/
theorem YieldsX.of_x0 (h : YieldsX i s 0#5 V len) : YieldsX i s 0#5 W len := by
  obtain ⟨t, he, -, honly, hadv⟩ := h
  exact ⟨t, he, fun h0 => absurd rfl h0, honly, hadv⟩

theorem yieldsX_of_upperImm {imm : BitVec 20} (h : exec i s = s.upperImm rd imm len) :
    YieldsX i s rd (imm.toInt * 4096) len := by
  refine yieldsX_of_setX h ?_
  rw [Xlen.immU_toNat]
  exact Int.emod_emod ..

/-- Settles O55: each form is its expansion's operation, on the immediate or the registers the form names. -/
theorem compressedAluResults : Obligations.CompressedAluResults := by
  unfold Obligations.CompressedAluResults
  simp only [prime_eq_full]
  refine ⟨fun s rdc rd nz imm => ?_, fun s rdc rs2c rd rs2 => ?_⟩
  · have hU : ∀ r, s.low s.cfg.xlen.bits r = BitVec.ofInt _ (s.U r) := s.low_eq_ofInt _
    have himm : (imm.signExtend 12).toInt = imm.toInt := BitVec.toInt_signExtend_of_le (by decide)
    have himmN : ((imm.signExtend 12).signExtend s.cfg.xlen.bits).toNat = s.immN imm := by
      rw [signExtend_signExtend_of_le imm _ (by decide), s.signExtend_toNat]
    have hli : YieldsX (.cLi rd imm) s rd (s.U 0#5 + imm.toInt) 2 :=
      yieldsX_of_opImm rfl (opAdd_of_ofInt (hU _) (congrArg _ himm))
    have hlui : YieldsX (.cLui rd imm) s rd ((imm.signExtend 20).toInt * 4096) 2 := yieldsX_of_upperImm rfl
    rw [s.U_x0, Int.zero_add] at hli
    rw [BitVec.toInt_signExtend_of_le (by decide)] at hlui
    refine ⟨yieldsX_of_opImm rfl (opAdd_of_ofInt (hU _) (congrArg _ (toInt_scaled nz (by decide)))),
      (yieldsX_of_opImm rfl (opAdd_of_ofInt (hU _) rfl)).of_x0,
      yieldsX_of_opImm rfl (opAdd_of_ofInt (hU _) (congrArg _ himm)),
      fun _ => yieldsX_of_opImmW rfl (toInt_eq_sext32Int (opAdd_of_ofInt (s.low_eq_ofInt 32 rd) (congrArg _ himm))),
      hli,
      yieldsX_of_opImm rfl (opAdd_of_ofInt (hU _) (congrArg _ (toInt_signExtend_append_zero imm (by decide)))), hlui,
      yieldsX_of_opImm rfl (opAnd_of_toNat (s.low_toNat _) himmN), fun hok => ?_⟩
    have hshamt := toNat_setWidth_mod (Xlen.toNat_lt_bits hok)
    exact ⟨yieldsX_of_opShamt rfl (opSrl_of_toNat (congrArg _ (s.low_toNat _)) hshamt),
      yieldsX_of_opShamt rfl (opSra_of_toInt (s.low_toInt _) hshamt),
      yieldsX_of_opShamt rfl (opSll_of_ofInt (hU _) hshamt)⟩
  · have hU : ∀ k r, s.low k r = BitVec.ofInt k (s.U r) := s.low_eq_ofInt
    have hN := s.low_toNat
    have hmv : YieldsX (.cMv rd rs2) s rd (s.U 0#5 + s.U rs2) 2 :=
      yieldsX_of_opReg rfl (opAdd_of_ofInt (hU _ _) (hU _ _))
    rw [s.U_x0, Int.zero_add] at hmv
    exact ⟨yieldsX_of_opReg rfl (opSub_of_ofInt (hU _ _) (hU _ _)), yieldsX_of_opReg rfl (opXor_of_toNat (hN _) (hN _)),
      yieldsX_of_opReg rfl (opOr_of_toNat (hN _) (hN _)), yieldsX_of_opReg rfl (opAnd_of_toNat (hN _) (hN _)), hmv,
      yieldsX_of_opReg rfl (opAdd_of_ofInt (hU _ _) (hU _ _)), fun _ =>
        ⟨yieldsX_of_opRegW rfl (toInt_eq_sext32Int (opSub_of_ofInt (hU _ _) (hU _ _))),
          yieldsX_of_opRegW rfl (toInt_eq_sext32Int (opAdd_of_ofInt (hU _ _) (hU _ _)))⟩⟩

/-! ### Transfers -/

/-- Settles O56: each form is `link` or `branch`, with a link of pc + 2, and the branches compare with x0. -/
theorem compressedTransferResults : Obligations.CompressedTransferResults := by
  unfold Obligations.CompressedTransferResults
  simp only [prime_eq_full]
  intro s rs1 rs1c off boff
  have hoff : ((off.signExtend 20).toInt : Int) = off.toInt := BitVec.toInt_signExtend_of_le (by decide)
  have hboff : (boff.signExtend 12).toInt = boff.toInt := BitVec.toInt_signExtend_of_le (by decide)
  have htarget := offset_target s (off.signExtend 20) le_rfl
  have hlt := s.cfg.xlen.narrow_lt (s.readPc + s.cfg.xlen.offset (off.signExtend 20))
  rw [← hoff, ← hboff, ← htarget]
  have hzero : s.U rs1c.full = 0 ↔ (s.readX rs1c.full == s.readX 0#5) = true := by
    rw [← U_eq_iff, s.U_x0]
  exact ⟨jumps_of_link rfl rfl hlt fun h => absurd rfl h, fun _ => jumps_of_link rfl rfl hlt fun _ => rfl,
    jumps_of_link rfl (s.jalrTarget_toNat rs1 0#12) (s.fromReg_lt rs1 0#12) fun h => absurd rfl h,
    jumps_of_link rfl (s.jalrTarget_toNat rs1 0#12) (s.fromReg_lt rs1 0#12) fun _ => rfl,
    branches_of_iff hzero rfl, branches_of_iff_not hzero rfl⟩

end Sys2Proof.Machine
end

section
/-! Loads and stores of floating-point registers, and the compressed loads and stores (47_f.md R815, R820, R821; 48_d.md
R901, R902; 49_c.md R1002, R1004 to R1011, R1032 to R1035, R1041 to R1044). -/

namespace Sys2Proof.Machine

variable {s : State} {i : Instr} {rd : FReg} {a : Word} {len : Nat}

/-! ### Values loaded -/

theorem boxS_toNat (r : BitVec 32) : (boxS r).toNat = 0xFFFFFFFF00000000 + r.toNat := by
  rw [boxS, toNat_append_eq]
  rfl

theorem boxS_eq_ofNat (r : BitVec 32) : boxS r = BitVec.ofNat 64 (0xFFFFFFFF00000000 + r.toNat) := by
  rw [← boxS_toNat, BitVec.ofNat_toNat, BitVec.setWidth_eq]

theorem boxLoaded_loadValue (s : State) (a : Word) :
    boxLoaded (s.loadValue a 4) = BitVec.ofNat 64 (0xFFFFFFFF00000000 + s.bytesAt a.toNat 4) := by
  have hlt : s.bytesAt a.toNat 4 < 2 ^ 32 := bytesAt_lt s a.toNat 4
  rw [boxLoaded, boxS_eq_ofNat, BitVec.toNat_setWidth, loadValue_toNat s a (by decide), Nat.mod_eq_of_lt hlt]

theorem zextLoaded_loadValue (s : State) (a : Word) :
    zextLoaded (s.loadValue a 8) = BitVec.ofNat 64 (s.bytesAt a.toNat 8) := by
  rw [← loadValue_toNat s a le_rfl, BitVec.ofNat_toNat, BitVec.setWidth_eq, zextLoaded]

theorem loadsF_single (h : exec i s = s.withRead a 4 fun v => s.setF rd (boxLoaded v) len) :
    LoadsF i s rd a 4 (BitVec.ofNat 64 (0xFFFFFFFF00000000 + s.bytesAt a.toNat 4)) len :=
  boxLoaded_loadValue s a ▸ loadsF_of_withRead h

theorem loadsF_double (h : exec i s = s.withRead a 8 fun v => s.setF rd (zextLoaded v) len) :
    LoadsF i s rd a 8 (BitVec.ofNat 64 (s.bytesAt a.toNat 8)) len :=
  zextLoaded_loadValue s a ▸ loadsF_of_withRead h

/-- Settles O40: a load is a read at State.address, then the boxing of what it read; a store is a write of the raw
register. -/
theorem floatLoadStoreResults : Obligations.FloatLoadStoreResults := by
  unfold Obligations.FloatLoadStoreResults
  intro s rs1 rd rs2 imm
  have ha : (s.address rs1 imm).toNat < s.size := address_lt s rs1 _
  exact ⟨s.address_toNat rs1 imm, loadsF_single rfl, loadsF_double rfl, stores_of_withWrite (by decide) ha rfl,
    stores_of_withWrite (by decide) ha rfl⟩

/-! ### Compressed offsets -/

theorem State.addressC_toNat (s : State) (r : Reg) (n : Nat) : (s.addressC r n).toNat = (s.N r + n) % s.size := by
  have hdvd : s.size ∣ 2 ^ 64 := s.cfg.xlen.size_dvd
  rw [State.addressC, State.ea, Xlen.narrow_toNat]
  refine (toNat_add_mod_size s _ _).trans ?_
  rw [BitVec.toNat_ofNat, Nat.add_mod, Nat.mod_mod_of_dvd _ hdvd]
  exact (Nat.add_mod ..).symm

/-- The address of a compressed load or store is that of its expansion, whose 12-bit immediate holds the scaled
offset. -/
theorem State.address_scaled (s : State) (r : Reg) {n k : Nat} (u : BitVec n) (h : n + k ≤ 11) :
    s.addressC r (u.toNat * 2 ^ k) = s.address r ((u ++ 0#k).setWidth 12) := by
  apply BitVec.eq_of_toNat_eq
  have hnat : s.U r + (u.toNat : Int) * 2 ^ k = ((s.N r + u.toNat * 2 ^ k : Nat) : Int) := by
    push_cast
    rfl
  rw [s.addressC_toNat, s.address_toNat, toInt_scaled u h, hnat]
  rfl

/-- Settles O57: each load is its expansion's read, at the address of the scaled offset. -/
theorem compressedLoadResults : Obligations.CompressedLoadResults := by
  unfold Obligations.CompressedLoadResults
  simp only [prime_eq_full]
  intro s rdc rs1c rd fd u5 u6
  have hw := s.address_scaled rs1c.full u5 (k := 2) (by decide)
  have hd := s.address_scaled rs1c.full u5 (k := 3) (by decide)
  have hwsp := s.address_scaled 2#5 u6 (k := 2) (by decide)
  have hdsp := s.address_scaled 2#5 u6 (k := 3) (by decide)
  simp only [Nat.reducePow] at hw hd hwsp hdsp
  rw [hw, hd, hwsp, hdsp]
  exact ⟨s.addressC_toNat, loadsX_of_sext (by decide) (by decide) rfl, loadsX_of_sext (by decide) (by decide) rfl,
    loadsF_double rfl, loadsF_double rfl,
    fun _ => ⟨loadsX_of_zext le_rfl rfl, loadsX_of_zext le_rfl rfl⟩,
    fun _ => ⟨loadsF_single rfl, loadsF_single rfl⟩⟩

/-- Settles O58: each store is its expansion's write, at the address of the scaled offset. -/
theorem compressedStoreResults : Obligations.CompressedStoreResults := by
  unfold Obligations.CompressedStoreResults
  simp only [prime_eq_full]
  intro s rs1c rs2c rs2 fs2 u5 u6
  have hw := s.address_scaled rs1c.full u5 (k := 2) (by decide)
  have hd := s.address_scaled rs1c.full u5 (k := 3) (by decide)
  have hwsp := s.address_scaled 2#5 u6 (k := 2) (by decide)
  have hdsp := s.address_scaled 2#5 u6 (k := 3) (by decide)
  simp only [Nat.reducePow] at hw hd hwsp hdsp
  rw [hw, hd, hwsp, hdsp]
  have hlt : ∀ r imm, (s.address r imm).toNat < s.size := fun r imm => address_lt s r _
  exact ⟨s.addressC_toNat, stores_of_withWrite (by decide) (hlt _ _) rfl, stores_of_withWrite (by decide) (hlt _ _) rfl,
    stores_of_withWrite le_rfl (hlt _ _) rfl, stores_of_withWrite le_rfl (hlt _ _) rfl,
    fun _ => ⟨stores_of_withWrite le_rfl (hlt _ _) rfl, stores_of_withWrite le_rfl (hlt _ _) rfl⟩,
    fun _ => ⟨stores_of_withWrite (by decide) (hlt _ _) rfl, stores_of_withWrite (by decide) (hlt _ _) rfl⟩⟩

end Sys2Proof.Machine
end

section
/-! The rounding mode of an instruction with an rm field (47_f.md R803, R818), and the floating-point instructions that
complete with what an operation of `Fmt` gives (47_f.md R809, R814, R822 to R830, R843 to R849; 48_d.md R903 to R911,
R917, R918, R925 to R931). -/

namespace Sys2Proof.Machine

variable {s : State} {i : Instr} {rd : FReg} {rm : BitVec 3} {m : RoundingMode} {bits : Word}

/-! ### The effective mode -/

theorem State.frm_toNat (s : State) : s.frm.toNat = s.fcsr.toNat / 32 := by
  have hlt := s.fcsr.isLt
  rw [State.frm, BitVec.extractLsb'_toNat, Nat.shiftRight_eq_div_pow]
  omega

theorem State.fflags_toNat (s : State) : s.fflags.toNat = s.fcsr.toNat % 32 := by
  rw [State.fflags, BitVec.extractLsb'_toNat, Nat.shiftRight_zero]

/-- The number of the effective mode. -/
theorem State.effective_toNat (s : State) (rm : BitVec 3) :
    (if rm = 7#3 then s.frm else rm).toNat = if rm = 7#3 then s.fcsr.toNat / 32 else rm.toNat := by
  split
  · exact s.frm_toNat
  · rfl

theorem ofBits_cases (b : BitVec 3) :
    (b.toNat = 0 → RoundingMode.ofBits b = some .rne) ∧ (b.toNat = 1 → RoundingMode.ofBits b = some .rtz) ∧
      (b.toNat = 2 → RoundingMode.ofBits b = some .rdn) ∧ (b.toNat = 3 → RoundingMode.ofBits b = some .rup) ∧
      (b.toNat = 4 → RoundingMode.ofBits b = some .rmm) ∧ (5 ≤ b.toNat → RoundingMode.ofBits b = none) := by
  revert b
  decide

/-- An instruction with an rm field checks the mode before anything else. -/
theorem exec_of_roundingField (h : i.roundingField = some rm) : ∃ k, exec i s = s.withRounding rm i.bits k := by
  unfold Instr.roundingField at h
  split at h
  case h_37 => cases h
  all_goals
    obtain ⟨⟩ := h
    exact ⟨_, rfl⟩

theorem State.withRounding_of_none (h : s.roundingMode rm = none) {k : RoundingMode → Out} :
    s.withRounding rm bits k = .next (s.trap .illegalInstruction bits) := by
  rw [State.withRounding, h]

theorem State.withRounding_of_some (h : s.roundingMode rm = some m) {k : RoundingMode → Out} :
    s.withRounding rm bits k = k m := by
  rw [State.withRounding, h]

/-- Settles O42: the effective mode is decoded by its number, and a reserved one ends the check. -/
theorem reservedRoundingTraps : Obligations.ReservedRoundingTraps := by
  unfold Obligations.ReservedRoundingTraps
  intro s rm
  obtain ⟨hrne, hrtz, hrdn, hrup, hrmm, hnone⟩ := ofBits_cases (if rm = 7#3 then s.frm else rm)
  simp only [s.effective_toNat] at hrne hrtz hrdn hrup hrmm hnone
  refine ⟨hrne, hrtz, hrdn, hrup, hrmm, hnone, s.frm_toNat, fun i hi h => ?_⟩
  obtain ⟨k, he⟩ := exec_of_roundingField (s := s) hi
  exact he.trans (State.withRounding_of_none (hnone h))

/-! ### Completion with a result of an operation -/

section
variable {r : FRes} {k : RoundingMode → Out} (hm : s.roundingMode rm = some m)
  (h : exec i s = s.withRounding rm bits k)

include hm h

/-- An instruction that checks its mode completes with the single-precision result, boxed. -/
theorem yieldsF_single (hk : k m = s.setS rd r) : YieldsF i s rd (boxS (BitVec.ofNat 32 r.bits)) r.flags 4 :=
  yieldsF_of_flags (h.trans ((State.withRounding_of_some hm).trans hk))

theorem yieldsF_double (hk : k m = s.setD rd r) : YieldsF i s rd (BitVec.ofNat 64 r.bits) r.flags 4 :=
  yieldsF_of_flags (h.trans ((State.withRounding_of_some hm).trans hk))

end

/-- The opposite sign is the opposite number. -/
theorem FVal.Real.neg {v : FVal} {x : ℝ} (h : v.Real x) : v.neg.Real (-x) := by
  cases v with
  | nan | inf => exact h
  | fin n k e =>
    have hx : x = (if n then -1 else 1) * k * 2 ^ e := h
    show -x = (if !n then -1 else 1) * k * 2 ^ e
    rw [hx]
    cases n <;> simp

theorem FVal.neg_of_isNaN {v : FVal} (h : v.isNaN = true) : v.neg = v := by
  cases v with
  | nan => rfl
  | inf | fin => cases h

/-- Settles O43: each form is one operation of Fmt under the effective mode. -/
theorem floatArithmetic : Obligations.FloatArithmetic := by
  unfold Obligations.FloatArithmetic
  refine ⟨fun s rd rs1 rs2 rs3 rm m hm => ?_, fun s rd rs1 rs2 rs3 rm m hm => ?_, fun v n k e x => ?_⟩
  · exact ⟨yieldsF_single hm rfl rfl, yieldsF_single hm rfl rfl, yieldsF_single hm rfl rfl, yieldsF_single hm rfl rfl,
      yieldsF_single hm rfl rfl, yieldsF_single hm rfl rfl, yieldsF_single hm rfl rfl, yieldsF_single hm rfl rfl,
      yieldsF_single hm rfl rfl⟩
  · exact ⟨yieldsF_double hm rfl rfl, yieldsF_double hm rfl rfl, yieldsF_double hm rfl rfl, yieldsF_double hm rfl rfl,
      yieldsF_double hm rfl rfl, yieldsF_double hm rfl rfl, yieldsF_double hm rfl rfl, yieldsF_double hm rfl rfl,
      yieldsF_double hm rfl rfl⟩
  · exact ⟨FVal.Real.neg, fun h => h ▸ rfl, fun h => h ▸ rfl, FVal.neg_of_isNaN⟩

/-! ### Integer operands -/

theorem State.sintL_eq (h : s.cfg.xlen = .rv64) (rs1 : Reg) : s.sintL rs1 = s.S rs1 := by
  rw [State.sintL, BitVec.toInt_eq_toNat_bmod, State.S, State.size, h]
  rfl

/-- Settles O54: each form is a rounding of the integer its register holds, or of the other format's value. -/
theorem fromIntegerResults : Obligations.FromIntegerResults := by
  unfold Obligations.FromIntegerResults
  intro s rd rs rs1 rm m hm
  have hS : s.sintW rs1 = s.S32 rs1 := s.low32_toInt rs1
  have hU : s.uintW rs1 = s.U32 rs1 := s.low32_toNat rs1
  rw [← hS, ← hU]
  refine ⟨yieldsF_single hm rfl rfl, yieldsF_single hm rfl rfl, yieldsF_double hm rfl rfl, yieldsF_double hm rfl rfl,
    yieldsF_single hm rfl rfl, yieldsF_double hm rfl rfl, fun hx => ?_⟩
  rw [← State.sintL_eq hx]
  exact ⟨yieldsF_single hm rfl rfl, yieldsF_single hm rfl rfl, yieldsF_double hm rfl rfl, yieldsF_double hm rfl rfl⟩

end Sys2Proof.Machine
end

section
/-! Sign injection and the moves between the register files (47_f.md R816, R817, R831 to R833, R838, R845; 48_d.md R912
to R914, R929, R932). -/

namespace Sys2Proof.Machine

/-- A sign on the bits below it. -/
theorem signInject_eq_ofNat {n : Nat} (sign : Bool) (a : BitVec (n + 1)) :
    signInject sign a = BitVec.ofNat (n + 1) (a.toNat % 2 ^ n + if sign then 2 ^ n else 0) := by
  apply BitVec.eq_of_toNat_eq
  have hlt : a.toNat % 2 ^ n < 2 ^ n := Nat.mod_lt _ (by positivity)
  have hpow : 2 ^ (n + 1) = 2 ^ n + 2 ^ n := by ring
  rw [signInject, BitVec.toNat_cons', BitVec.toNat_setWidth, Nat.shiftLeft_eq, BitVec.toNat_ofNat, Nat.add_comm]
  cases sign
  · simp only [Bool.toNat_false, Nat.zero_mul, Bool.false_eq_true, if_false]
    exact (Nat.mod_eq_of_lt (by omega)).symm
  · simp only [Bool.toNat_true, Nat.one_mul, if_true]
    exact (Nat.mod_eq_of_lt (by omega)).symm

/-- Settles O51: each form puts a sign on the bits below the first operand's. -/
theorem signInjectionResults : Obligations.SignInjectionResults := by
  unfold Obligations.SignInjectionResults
  intro s rd rs1 rs2
  have hsingle : ∀ sign, signInject (n := 31) sign (s.readS rs1) = _ := fun sign => signInject_eq_ofNat sign _
  have hdouble : ∀ sign, signInject (n := 63) sign (s.readF rs1) = _ := fun sign => signInject_eq_ofNat sign _
  dsimp only
  simp only [← hsingle, ← hdouble]
  exact ⟨yieldsF_of_setF rfl, yieldsF_of_setF rfl, yieldsF_of_setF rfl, yieldsF_of_setF rfl, yieldsF_of_setF rfl,
    yieldsF_of_setF rfl⟩

/-- Settles O52: the bits are moved, the low 32 sign-extended into an integer register and boxed into a floating-point
one. -/
theorem moveResults : Obligations.MoveResults := by
  unfold Obligations.MoveResults
  intro s rx rf
  refine ⟨yieldsX_of_setX rfl ?_, ?_, fun _ => ⟨yieldsX_of_setX rfl rfl, ?_⟩⟩
  · rw [Xlen.sext_toNat _ _ (by decide), BitVec.toInt_setWidth]
    exact Int.emod_emod ..
  · have hbox := boxS_eq_ofNat ((s.readX rx).setWidth 32)
    rw [BitVec.toNat_setWidth] at hbox
    exact hbox ▸ yieldsF_of_setF rfl
  · have hbits : BitVec.ofNat 64 (s.N rx) = s.readX rx := BitVec.ofNat_toNat 64 _ |>.trans (BitVec.setWidth_eq _)
    exact hbits ▸ yieldsF_of_setF rfl

end Sys2Proof.Machine
end

section
/-! Operands that are NaNs, infinities or zeros (47_f.md R805, R806, R808, R809). -/

namespace Sys2Proof.Machine

variable {t : Fmt} {m : RoundingMode} {a b c : FVal} {na nb nc : Bool} {ma mb mc : Nat} {ea eb ec : Int}

/-! ### NaN operands -/

@[simp] theorem FVal.isNaN_neg (a : FVal) : a.neg.isNaN = a.isNaN := by cases a <;> rfl

@[simp] theorem FVal.isSNaN_neg (a : FVal) : a.neg.isSNaN = a.isSNaN := by cases a <;> rfl

theorem add_of_isNaN (h : a.isNaN = true ∨ b.isNaN = true) : t.add m a b = t.nanResult (a.isSNaN || b.isSNaN) :=
  if_pos (Bool.or_eq_true_iff.mpr h)

theorem sub_of_isNaN (h : a.isNaN = true ∨ b.isNaN = true) : t.sub m a b = t.nanResult (a.isSNaN || b.isSNaN) := by
  rw [Fmt.sub, add_of_isNaN (by simpa using h), FVal.isSNaN_neg]

theorem mul_of_isNaN (h : a.isNaN = true ∨ b.isNaN = true) : t.mul m a b = t.nanResult (a.isSNaN || b.isSNaN) :=
  if_pos (Bool.or_eq_true_iff.mpr h)

theorem div_of_isNaN (h : a.isNaN = true ∨ b.isNaN = true) : t.div m a b = t.nanResult (a.isSNaN || b.isSNaN) := by
  unfold Fmt.div
  split
  case h_5 => rfl
  all_goals simp [FVal.isNaN] at h

theorem fma_of_isNaN (hz : a.infTimesZero b = false) (h : a.isNaN = true ∨ b.isNaN = true ∨ c.isNaN = true) :
    t.fma m a b c = t.nanResult (a.isSNaN || b.isSNaN || c.isSNaN) := by
  rw [Fmt.fma, if_neg (Bool.eq_false_iff.mp hz), if_pos (by simpa [or_assoc] using h)]

/-! ### Infinite and zero operands -/

theorem mul_inf_fin (hm : mb ≠ 0) :
    t.mul m (.inf na) (.fin nb mb eb) = { bits := t.withSign (na != nb) t.infBits, flags := 0#5 } := by
  obtain ⟨k, rfl⟩ := Nat.exists_eq_succ_of_ne_zero hm
  rfl

theorem mul_fin_inf (hm : ma ≠ 0) :
    t.mul m (.fin na ma ea) (.inf nb) = { bits := t.withSign (na != nb) t.infBits, flags := 0#5 } := by
  obtain ⟨k, rfl⟩ := Nat.exists_eq_succ_of_ne_zero hm
  rfl

theorem infTimesZero_fin_fin : (FVal.fin na ma ea).infTimesZero (.fin nb mb eb) = false := by
  cases ma <;> cases mb <;> rfl

theorem mul_fin_fin : t.mul m (.fin na ma ea) (.fin nb mb eb) = t.roundFin m (na != nb) (ma * mb) (ea + eb) := by
  rw [Fmt.mul, infTimesZero_fin_fin]
  rfl

/-- Settles O47: by the operands, as the definitions tell them apart. -/
theorem specialProducts : Obligations.SpecialProducts := by
  unfold Obligations.SpecialProducts
  intro t m a b na nb ma mb ea eb
  refine ⟨fun h => ⟨mul_of_isNaN h, div_of_isNaN h⟩, fun h => ?_, rfl, rfl, ?_, ?_, fun h => ?_, rfl, rfl,
    fun ha hb => (if_pos hb).trans (if_pos ha), fun ha hb => (if_pos hb).trans (if_neg ha),
    fun ha hb => (if_neg hb).trans (if_pos ha), rfl, rfl, rfl, fun h => (if_neg h).trans (if_pos rfl), rfl, rfl, rfl⟩
  · cases a with
    | nan => exact ⟨rfl, rfl⟩
    | inf | fin => cases h
  · split
    · next h => exact h ▸ rfl
    · next h => exact mul_inf_fin h
  · split
    · next h => exact h ▸ rfl
    · next h => exact mul_fin_inf h
  · rw [mul_fin_fin, Nat.mul_eq_zero.mpr h]
    rfl

end Sys2Proof.Machine
end

section
/-! The exact real values of numbers, and sums that are exactly zero (47_f.md R807 to R809). -/

namespace Sys2Proof.Machine

/-- The real (−1)^neg · m · 2^e. -/
noncomputable def finReal (neg : Bool) (m : Nat) (e : Int) : ℝ := (if neg then -1 else 1) * m * 2 ^ e

section
variable {t : Fmt} {rm : RoundingMode} {a : FVal} {n na nb nc : Bool} {m ma mb mc : Nat} {e ea eb ec k : Int} {x y : ℝ}

theorem FVal.real_fin : (FVal.fin n m e).Real x ↔ x = finReal n m e := Iff.rfl

theorem FVal.Real.exists_fin (h : a.Real x) : ∃ n m e, a = .fin n m e ∧ x = finReal n m e := by
  cases a with
  | nan | inf => exact h.elim
  | fin n m e => exact ⟨n, m, e, rfl, h⟩

theorem finReal_not (n : Bool) (m : Nat) (e : Int) : finReal (!n) m e = -finReal n m e := by
  cases n <;> simp [finReal]

theorem finReal_false : finReal false m e = m * 2 ^ e := by simp [finReal]

theorem abs_finReal : |finReal n m e| = m * 2 ^ e := by
  have hpos : (0 : ℝ) ≤ m * 2 ^ e := by positivity
  cases n with
  | false => rw [finReal_false, abs_of_nonneg hpos]
  | true => rw [← Bool.not_false, finReal_not, abs_neg, finReal_false, abs_of_nonneg hpos]

theorem finReal_eq_zero : finReal n m e = 0 ↔ m = 0 := by
  have hpow : (2 : ℝ) ^ e ≠ 0 := by positivity
  rw [← abs_eq_zero, abs_finReal, mul_eq_zero_iff_right hpow, Nat.cast_eq_zero]

theorem finReal_mul : finReal na ma ea * finReal nb mb eb = finReal (na != nb) (ma * mb) (ea + eb) := by
  simp only [finReal, Nat.cast_mul, zpow_add₀ (two_ne_zero' ℝ)]
  cases na <;> cases nb <;> simp <;> ring

/-- The sign of a number that is not zero. -/
theorem finReal_neg_iff (hm : m ≠ 0) : finReal n m e < 0 ↔ n = true := by
  have hpos : (0 : ℝ) < m * 2 ^ e := by positivity
  cases n with
  | false => simpa [finReal_false] using hpos.le
  | true => simpa [← Bool.not_false, finReal_not, finReal_false] using hpos

theorem signedInt_cast : (signedInt n m : ℝ) = (if n then -1 else 1) * m := by
  cases n <;> simp [signedInt]

/-- Aligned to a common unit, a number is an integer count of it. -/
theorem align_mul (h : k ≤ e) : (align n m e k : ℝ) * 2 ^ k = finReal n m e := by
  have hexp : (2 : ℝ) ^ (e - k).toNat * 2 ^ k = 2 ^ e := by
    rw [← zpow_natCast, Int.toNat_of_nonneg (by omega), ← zpow_add₀ (two_ne_zero' ℝ), Int.sub_add_cancel]
  rw [align, signedInt_cast, Nat.cast_mul, Nat.cast_pow, Nat.cast_ofNat, mul_assoc, mul_assoc, hexp, finReal, mul_assoc]

/-- The exact sum, in the smaller unit. -/
theorem align_add_mul :
    ((align na ma ea (min ea eb) + align nb mb eb (min ea eb) : Int) : ℝ) * 2 ^ min ea eb =
      finReal na ma ea + finReal nb mb eb := by
  rw [Int.cast_add, add_mul, align_mul (min_le_left ..), align_mul (min_le_right ..)]

theorem align_add_eq_zero :
    align na ma ea (min ea eb) + align nb mb eb (min ea eb) = 0 ↔ finReal na ma ea + finReal nb mb eb = 0 := by
  rw [← align_add_mul, mul_eq_zero_iff_right (by positivity), Int.cast_eq_zero]

/-! ### Exact zero sums -/

theorem eq_zero_iff_of_sum_eq_zero (h : finReal na ma ea + finReal nb mb eb = 0) : ma = 0 ↔ mb = 0 := by
  rw [← finReal_eq_zero (n := na) (e := ea), ← finReal_eq_zero (n := nb) (e := eb), eq_neg_of_add_eq_zero_left h,
    neg_eq_zero]

/-- The sign of an exact zero sum (47_f.md R808). -/
theorem addFin_of_sum_eq_zero (h : finReal na ma ea + finReal nb mb eb = 0) :
    t.addFin rm na ma ea nb mb eb =
      { bits := t.withSign (if ma = 0 ∧ na = nb then na else decide (rm = .rdn)) 0, flags := 0#5 } := by
  have hzero := eq_zero_iff_of_sum_eq_zero h
  have hsign : (if ma = 0 && mb = 0 && na == nb then na else rm == .rdn) =
      if ma = 0 ∧ na = nb then na else decide (rm = .rdn) := by
    rw [Bool.beq_eq_decide_eq rm]
    simp [hzero]
  exact (if_pos (align_add_eq_zero.mpr h)).trans (by rw [hsign]; rfl)

theorem fma_fin_fin_fin : t.fma rm (.fin na ma ea) (.fin nb mb eb) (.fin nc mc ec) =
    t.addFin rm (na != nb) (ma * mb) (ea + eb) nc mc ec := by
  rw [Fmt.fma, infTimesZero_fin_fin]
  rfl

theorem fma_fin_fin_inf : t.fma rm (.fin na ma ea) (.fin nb mb eb) (.inf nc) =
    { bits := t.withSign nc t.infBits, flags := 0#5 } := by
  rw [Fmt.fma, infTimesZero_fin_fin]
  rfl

/-- An infinite product, by the operand that is infinite (47_f.md R809). -/
theorem fma_of_infinite_product {a b c : FVal}
    (h : a = .inf na ∧ b = .inf nb ∨ a = .inf na ∧ b = .fin nb mb eb ∧ mb ≠ 0 ∨
      a = .fin na ma ea ∧ ma ≠ 0 ∧ b = .inf nb)
    (hc : c.isNaN = false) : t.fma rm a b c = t.addNum rm (.inf (na != nb)) c := by
  have hz : a.infTimesZero b = false ∧ a.isNaN = false ∧ b.isNaN = false ∧ a.mulNum b = .inf (na != nb) := by
    rcases h with ⟨rfl, rfl⟩ | ⟨rfl, rfl, hm⟩ | ⟨rfl, hm, rfl⟩
    · exact ⟨rfl, rfl, rfl, rfl⟩
    · obtain ⟨k, rfl⟩ := Nat.exists_eq_succ_of_ne_zero hm
      exact ⟨rfl, rfl, rfl, rfl⟩
    · obtain ⟨k, rfl⟩ := Nat.exists_eq_succ_of_ne_zero hm
      exact ⟨rfl, rfl, rfl, rfl⟩
  obtain ⟨hz, ha, hb, hmul⟩ := hz
  simp [Fmt.fma, hz, ha, hb, hc, hmul]

/-- Settles O46: by the operands, and an exact zero sum by the integers the sum is made of. -/
theorem specialSums : Obligations.SpecialSums := by
  unfold Obligations.SpecialSums
  refine ⟨fun t rm a b => ⟨fun h => ⟨add_of_isNaN h, sub_of_isNaN h⟩, fun n => ?_, fun n x ha => ?_, ?_, ?_⟩,
    fun t rm a b c na nb nc ma mb mc ea eb ec => ⟨?_, ?_, fma_of_isNaN, fun h => ⟨?_, ?_⟩, fma_fin_fin_inf, ?_⟩⟩
  · cases n <;> exact ⟨rfl, rfl, rfl, rfl⟩
  · obtain ⟨na, ma, ea, rfl, -⟩ := ha.exists_fin
    exact ⟨rfl, rfl, rfl, rfl⟩
  · intro na ma ea nb mb eb x hx hy
    refine addFin_of_sum_eq_zero ?_
    rw [← FVal.real_fin.mp hx, ← FVal.real_fin.mp hy, add_neg_cancel]
  · intro na ma ea nb mb eb x hx hy
    have hsum : finReal na ma ea + finReal (!nb) mb eb = 0 := by
      rw [finReal_not, ← FVal.real_fin.mp hx, ← FVal.real_fin.mp hy, add_neg_cancel]
    have hsub := addFin_of_sum_eq_zero (t := t) (rm := rm) hsum
    simp only [Bool.eq_not] at hsub
    exact hsub
  · cases c <;> rfl
  · cases c <;> rfl
  · rw [fma_of_infinite_product h rfl]
    rfl
  · rw [fma_of_infinite_product h rfl]
    cases na <;> cases nb <;> cases nc <;> rfl
  · intro x y hx hy hz
    have hsum : finReal (na != nb) (ma * mb) (ea + eb) + finReal nc mc ec = 0 := by
      rw [← finReal_mul, ← FVal.real_fin.mp hx, ← FVal.real_fin.mp hy, ← FVal.real_fin.mp hz, add_neg_cancel]
    rw [fma_fin_fin_fin, addFin_of_sum_eq_zero hsum]
    simp only [eq_zero_iff_of_sum_eq_zero hsum]
    by_cases hn : (na != nb) = nc
    · simp only [hn]
    · simp only [hn, and_false, if_false]

end
end Sys2Proof.Machine
end

section
/-! Exact magnitudes as reals: the integer logarithm, and the floor of a magnitude in a unit with the place of the
magnitude above it (47_f.md R807). -/

namespace Sys2Proof.Machine

/-- The real a magnitude is. -/
noncomputable def Mag.real : Mag → ℝ
  | .ratio num den => num / den
  | .root num den => √(num / den)

/-- The denominator is not zero. -/
def Mag.Wf : Mag → Prop
  | .ratio _ den => 0 < den
  | .root _ den => 0 < den

section
variable {num den n : Nat} {k : Int} {g : Mag} {y : ℝ}

/-! ### Scaling by a power of two -/

theorem scale_snd_pos (h : 0 < den) (k : Int) : 0 < (scale num den k).2 := Nat.mul_pos h (Nat.two_pow_pos _)

theorem scale_div (num den : Nat) (k : Int) : ((scale num den k).1 : ℝ) / (scale num den k).2 = num / den * 2 ^ k := by
  have hk : (2 : ℝ) ^ k = 2 ^ k.toNat / 2 ^ (-k).toNat := by
    rw [← zpow_natCast, ← zpow_natCast, ← zpow_sub₀ (two_ne_zero' ℝ)]
    congr 1
    omega
  simp only [scale, Nat.cast_mul, Nat.cast_pow, Nat.cast_ofNat]
  rw [hk, mul_div_mul_comm]

/-! ### The integer logarithm -/

theorem two_zpow_log2_le (h : 0 < n) : (2 : ℝ) ^ (n.log2 : Int) ≤ n := by
  rw [zpow_natCast]
  exact_mod_cast Nat.log2_self_le h.ne'

theorem lt_two_zpow_log2 (n : Nat) : (n : ℝ) < 2 ^ ((n.log2 : Int) + 1) := by
  have h : n < 2 ^ (n.log2 + 1) := Nat.lt_log2_self
  rw [← Nat.cast_succ, zpow_natCast]
  exact_mod_cast h

theorem scale_le_iff (hd : 0 < den) (k : Int) :
    (scale num den (-k)).2 ≤ (scale num den (-k)).1 ↔ (2 : ℝ) ^ k ≤ num / den := by
  have hpos : (0 : ℝ) < (scale num den (-k)).2 := Nat.cast_pos.mpr (scale_snd_pos hd _)
  rw [← Nat.cast_le (α := ℝ), ← one_le_div hpos, scale_div, zpow_neg, ← div_eq_mul_inv, one_le_div (by positivity)]

theorem floorLog2_spec (hn : 0 < num) (hd : 0 < den) :
    (2 : ℝ) ^ floorLog2 num den ≤ num / den ∧ (num / den : ℝ) < 2 ^ (floorLog2 num den + 1) := by
  have hden : (0 : ℝ) < den := Nat.cast_pos.mpr hd
  have hup : (num / den : ℝ) < 2 ^ ((num.log2 : Int) - den.log2 + 1) := by
    rw [div_lt_iff₀ hden]
    calc
      (num : ℝ) < 2 ^ ((num.log2 : Int) + 1) := lt_two_zpow_log2 num
      _ = 2 ^ ((num.log2 : Int) - den.log2 + 1) * 2 ^ (den.log2 : Int) := by
        rw [← zpow_add₀ (two_ne_zero' ℝ)]
        congr 1
        ring
      _ ≤ _ := mul_le_mul_of_nonneg_left (two_zpow_log2_le hd) (by positivity)
  have hlow : (2 : ℝ) ^ ((num.log2 : Int) - den.log2 - 1) ≤ num / den := by
    rw [le_div_iff₀ hden]
    calc
      (2 : ℝ) ^ ((num.log2 : Int) - den.log2 - 1) * den ≤
          2 ^ ((num.log2 : Int) - den.log2 - 1) * 2 ^ ((den.log2 : Int) + 1) :=
        mul_le_mul_of_nonneg_left (lt_two_zpow_log2 den).le (by positivity)
      _ = 2 ^ (num.log2 : Int) := by
        rw [← zpow_add₀ (two_ne_zero' ℝ)]
        congr 1
        ring
      _ ≤ num := two_zpow_log2_le hn
  unfold floorLog2
  dsimp only
  split
  · next h => exact ⟨(scale_le_iff hd _).mp h, hup⟩
  · next h =>
    rw [Int.sub_add_cancel]
    exact ⟨hlow, not_le.mp fun h' => h ((scale_le_iff hd _).mpr h')⟩

/-- The exponent of a magnitude (47_f.md R807). -/
theorem Mag.floorLog2_spec (hg : g.Wf) (hpos : 0 < g.real) :
    (2 : ℝ) ^ g.floorLog2 ≤ g.real ∧ g.real < 2 ^ (g.floorLog2 + 1) := by
  cases g with
  | ratio num den =>
    have hn : num ≠ 0 := by
      rintro rfl
      simp [Mag.real] at hpos
    exact Machine.floorLog2_spec (Nat.pos_of_ne_zero hn) hg
  | root num den =>
    have hn : num ≠ 0 := by
      rintro rfl
      simp [Mag.real] at hpos
    obtain ⟨hlo, hhi⟩ := Machine.floorLog2_spec (Nat.pos_of_ne_zero hn) hg
    have hsq : ∀ k : Int, ((2 : ℝ) ^ k) ^ 2 = 2 ^ (2 * k) := fun k => by
      rw [← zpow_natCast, ← zpow_mul, Nat.cast_ofNat, Int.mul_comm]
    refine ⟨Real.le_sqrt_of_sq_le ?_, (Real.sqrt_lt' (by positivity)).mpr ?_⟩
    · rw [hsq]
      exact (zpow_le_zpow_right₀ one_le_two (by simp only [Mag.floorLog2]; omega)).trans hlo
    · rw [hsq]
      exact hhi.trans_le (zpow_le_zpow_right₀ one_le_two (by simp only [Mag.floorLog2]; omega))

/-! ### The integer square root -/

theorem isqrtFrom_spec (b : Nat) : ∀ r, r * r ≤ n → n < (r + 2 ^ (b + 1)) * (r + 2 ^ (b + 1)) →
    isqrtFrom n b r * isqrtFrom n b r ≤ n ∧ n < (isqrtFrom n b r + 1) * (isqrtFrom n b r + 1) := by
  induction b with
  | zero =>
    intro r hlo hhi
    unfold isqrtFrom
    dsimp only
    split
    · next h => exact ⟨h, hhi⟩
    · next h => exact ⟨hlo, not_le.mp h⟩
  | succ b ih =>
    intro r hlo hhi
    unfold isqrtFrom
    dsimp only
    split
    · next h =>
      refine ih _ h ?_
      rwa [Nat.add_assoc, ← Nat.two_mul, ← Nat.pow_succ']
    · next h => exact ih r hlo (not_le.mp h)

theorem isqrt_spec (n : Nat) : isqrt n * isqrt n ≤ n ∧ n < (isqrt n + 1) * (isqrt n + 1) := by
  refine isqrtFrom_spec _ 0 (Nat.zero_le n) ?_
  rw [Nat.zero_add, ← Nat.pow_add]
  exact Nat.lt_log2_self.trans_le (Nat.pow_le_pow_right (by decide) (by omega))

/-! ### Places -/

/-- Where `y` lies between `n` and `n + 1`. -/
def Place.Holds (pl : Place) (n : Nat) (y : ℝ) : Prop :=
  match pl with
  | .exact => y = n
  | .below => n < y ∧ y < n + 1 / 2
  | .half => y = n + 1 / 2
  | .above => n + 1 / 2 < y ∧ y < n + 1

theorem Place.holds_of {zero : Bool} {twice unit : Nat} (hlo : n ≤ y) (hhi : y < n + 1) (hz : zero = true ↔ y = n)
    (hlt : twice < unit ↔ y < n + 1 / 2) (heq : twice = unit ↔ y = n + 1 / 2) :
    (Place.of zero twice unit).Holds n y := by
  unfold Place.of
  split_ifs with h0 h1 h2
  · exact hz.mp h0
  · exact ⟨lt_of_le_of_ne hlo fun h => h0 (hz.mpr h.symm), hlt.mp h1⟩
  · exact heq.mp h2
  · exact ⟨lt_of_le_of_ne (not_lt.mp fun h => h1 (hlt.mpr h)) fun h => h2 (heq.mpr h.symm), hhi⟩

theorem place_of_div (num : Nat) (hd : 0 < den) :
    (Place.of (num % den == 0) (2 * (num % den)) den).Holds (num / den) (num / den) := by
  have hden : (0 : ℝ) < den := Nat.cast_pos.mpr hd
  have hy : (num / den : ℝ) = (num / den : ℕ) + (num % den : ℕ) / den := by
    have hsum : (num : ℝ) = den * (num / den : ℕ) + (num % den : ℕ) := by exact_mod_cast (Nat.div_add_mod num den).symm
    rw [hsum, add_div, mul_div_cancel_left₀ _ hden.ne']
  have hr : ((num % den : ℕ) : ℝ) < den := Nat.cast_lt.mpr (Nat.mod_lt num hd)
  rw [hy]
  generalize num % den = r at hr
  refine Place.holds_of (le_add_of_nonneg_right (by positivity)) ?_ ?_ ?_ ?_
  · rwa [add_lt_add_iff_left, div_lt_one hden]
  · simp [hden.ne']
  · rw [add_lt_add_iff_left, div_lt_div_iff₀ hden two_pos, one_mul, mul_comm]
    exact_mod_cast Iff.rfl
  · rw [add_right_inj, div_eq_div_iff hden.ne' two_ne_zero, one_mul, mul_comm]
    exact_mod_cast Iff.rfl

/-- A root against a number, squared. -/
theorem sqrt_div_lt_iff (hd : 0 < den) {c : ℝ} (hc : 0 < c) : √(num / den : ℝ) < c ↔ (num : ℝ) < c ^ 2 * den := by
  rw [Real.sqrt_lt' hc, div_lt_iff₀ (Nat.cast_pos.mpr hd)]

theorem sqrt_div_eq_iff (hd : 0 < den) {c : ℝ} (hc : 0 ≤ c) : √(num / den : ℝ) = c ↔ (num : ℝ) = c ^ 2 * den := by
  rw [Real.sqrt_eq_iff_eq_sq (by positivity) hc, div_eq_iff (Nat.cast_pos.mpr hd).ne']

theorem place_of_sqrt (hd : 0 < den) (hlo : n * n * den ≤ num) (hhi : num < (n + 1) * (n + 1) * den) :
    (Place.of (n * n * den == num) (4 * num) ((2 * n + 1) * (2 * n + 1) * den)).Holds n √(num / den) := by
  have hhalf : ((n : ℝ) + 1 / 2) ^ 2 * den = ((2 * n + 1) * (2 * n + 1) * den : ℕ) / 4 := by
    push_cast
    ring
  refine Place.holds_of (Real.le_sqrt_of_sq_le ?_) ((sqrt_div_lt_iff hd (by positivity)).mpr ?_) ?_ ?_ ?_
  · rw [le_div_iff₀ (Nat.cast_pos.mpr hd), sq]
    exact_mod_cast hlo
  · rw [sq]
    exact_mod_cast hhi
  · rw [sqrt_div_eq_iff hd (by positivity), sq, beq_iff_eq, eq_comm]
    exact_mod_cast Iff.rfl
  · rw [sqrt_div_lt_iff hd (by positivity), hhalf, lt_div_iff₀ four_pos, mul_comm]
    exact_mod_cast Iff.rfl
  · rw [sqrt_div_eq_iff hd (by positivity), hhalf, eq_div_iff four_ne_zero, mul_comm]
    exact_mod_cast Iff.rfl

/-- The floor of a magnitude in units of 2^k, and the place of the magnitude above it. -/
theorem Mag.units_holds (hg : g.Wf) (k : Int) : (g.units k).2.Holds (g.units k).1 (g.real / 2 ^ k) := by
  cases g with
  | ratio num den =>
    have h := place_of_div (scale num den (-k)).1 (scale_snd_pos (num := num) hg (-k))
    rwa [scale_div, zpow_neg, ← div_eq_mul_inv] at h
  | root num den =>
    have hd : 0 < (scale num den (-(2 * k))).2 := scale_snd_pos hg _
    obtain ⟨hlo, hhi⟩ := isqrt_spec ((scale num den (-(2 * k))).1 / (scale num den (-(2 * k))).2)
    have h := place_of_sqrt hd ((Nat.le_div_iff_mul_le hd).mp hlo) ((Nat.div_lt_iff_lt_mul hd).mp hhi)
    have hsq : (2 : ℝ) ^ (-(2 * k)) = (2 ^ k)⁻¹ ^ 2 := by
      rw [zpow_neg, inv_pow, ← zpow_natCast, ← zpow_mul, Nat.cast_ofNat, Int.mul_comm]
    rwa [scale_div, hsq, Real.sqrt_mul' _ (by positivity), Real.sqrt_sq (by positivity), ← div_eq_mul_inv] at h

end
end Sys2Proof.Machine
end

section
/-! Rounding to an integer (47_f.md R803, R807): what a mode gives from the floor and the place, that a mode gives one
integer only, and what rounding a magnitude in a unit gives. -/

namespace Sys2Proof.Machine

section
variable {pl : Place} {rm : RoundingMode} {neg : Bool} {n N a : Nat} {k : Int} {y : ℝ} {g : Mag}

/-! ### A real and its place -/

theorem Place.Holds.floor_eq (h : pl.Holds n y) : ⌊y⌋ = n := by
  rw [Int.floor_eq_iff, Int.cast_natCast]
  cases pl with
  | exact => exact ⟨h.ge, by rw [show y = n from h]; exact lt_add_one _⟩
  | below => exact ⟨h.1.le, by linarith [h.2]⟩
  | half => rw [show y = n + 1 / 2 from h]; constructor <;> linarith
  | above => exact ⟨by linarith [h.1], h.2⟩

theorem Place.Holds.ceil_eq (h : pl.Holds n y) : ⌈y⌉ = ((n + if pl = .exact then 0 else 1 : ℕ) : ℤ) := by
  rw [Int.ceil_eq_iff, Int.cast_natCast]
  cases pl with
  | exact => exact ⟨by simp [show y = n from h], by simp [show y = n from h]⟩
  | below => exact ⟨by simpa using h.1, by simpa using by linarith [h.2]⟩
  | half =>
    rw [show y = n + 1 / 2 from h]
    norm_num [show Place.half ≠ .exact from nofun]
  | above => exact ⟨by simpa using by linarith [h.1], by simpa using h.2.le⟩

theorem Place.Holds.nonneg (h : pl.Holds n y) : 0 ≤ y := by
  rw [← Int.floor_nonneg, h.floor_eq]
  exact Int.natCast_nonneg n

/-- The nearest integers: within a half, and exactly a half away from a tie alone. -/
theorem Place.Holds.nearest (h : pl.Holds n y) (hlow : pl = .exact ∨ pl = .below → N = n)
    (hhalf : pl = .half → N = n ∨ N = n + 1) (habove : pl = .above → N = n + 1) :
    |y - N| ≤ 1 / 2 ∧ (|y - N| = 1 / 2 → pl = .half) := by
  cases pl with
  | exact =>
    rw [hlow (.inl rfl), show y = n from h, sub_self, abs_zero]
    exact ⟨by norm_num, fun h0 => by norm_num at h0⟩
  | below =>
    have hlt : |y - n| < 1 / 2 := abs_lt.mpr ⟨by linarith [h.1], by linarith [h.2]⟩
    rw [hlow (.inr rfl)]
    exact ⟨hlt.le, fun h0 => absurd h0 hlt.ne⟩
  | half =>
    refine ⟨?_, fun _ => rfl⟩
    rw [show y = n + 1 / 2 from h]
    rcases hhalf rfl with rfl | rfl
    · norm_num
    · rw [Nat.cast_succ, add_sub_add_left_eq_sub]
      norm_num
  | above =>
    have hlt : |y - (n + 1 : ℕ)| < 1 / 2 := by
      push_cast
      exact abs_lt.mpr ⟨by linarith [h.1], by linarith [h.2]⟩
    rw [habove rfl]
    exact ⟨hlt.le, fun h0 => absurd h0 hlt.ne⟩

/-- Where it is no integer, a real is neither of the two it lies between. -/
theorem Place.Holds.ne_of_not_exact (h : pl.Holds n y) (hpl : pl ≠ .exact) (c : Bool) :
    y ≠ ((n + if c then 1 else 0 : ℕ) : ℝ) := by
  have hbetween : n < y ∧ y < n + 1 := by
    cases pl with
    | exact => exact absurd rfl hpl
    | below => exact ⟨h.1, by linarith [h.2]⟩
    | half =>
      rw [show y = n + 1 / 2 from h]
      constructor <;> linarith
    | above => exact ⟨by linarith [h.1], h.2⟩
  cases c with
  | false => simpa using hbetween.1.ne'
  | true => simpa using hbetween.2.ne

/-! ### Signs -/

theorem abs_sign_mul (neg : Bool) (x : ℝ) : |(if neg then -1 else 1) * x| = |x| := by cases neg <;> simp

theorem abs_signedInt_cast (neg : Bool) (n : Nat) : |(signedInt neg n : ℝ)| = n := by
  rw [signedInt_cast, abs_sign_mul, Nat.abs_cast]

theorem signedInt_emod_two (neg : Bool) (n : Nat) : signedInt neg n % 2 = 0 ↔ n % 2 = 0 := by
  cases neg <;> simp only [signedInt, Bool.false_eq_true, if_true, if_false] <;> omega

/-! ### The modes -/

theorem up_exact : rm.up neg n .exact = false := by cases rm <;> rfl

theorem up_rtz : RoundingMode.rtz.up neg n pl = false := by cases pl <;> rfl

theorem up_rdn : RoundingMode.rdn.up neg n pl = (neg && pl ≠ .exact) := by cases pl <;> cases neg <;> rfl

theorem up_rup : RoundingMode.rup.up neg n pl = (!neg && pl ≠ .exact) := by cases pl <;> cases neg <;> rfl

/-- Toward zero, the floor of the magnitude is kept. -/
theorem rounds_rtz (h : pl.Holds n y) (neg : Bool) :
    RoundingMode.rtz.Rounds ((if neg then -1 else 1) * y)
      (signedInt neg (n + if RoundingMode.rtz.up neg n pl then 1 else 0)) := by
  rw [up_rtz]
  cases neg with
  | false => simp [RoundingMode.Rounds, signedInt, h.nonneg, h.floor_eq]
  | true =>
    simp only [RoundingMode.Rounds, signedInt, Bool.false_eq_true, if_false, if_true, Nat.add_zero, neg_one_mul,
      Int.ceil_neg, h.floor_eq]
    split
    · next hy =>
      have hy0 : y = 0 := le_antisymm (neg_nonneg.mp hy) h.nonneg
      have hn := h.floor_eq
      rw [hy0, Int.floor_zero] at hn
      rw [hy0, neg_zero, Int.floor_zero, ← hn, neg_zero]
    · rfl

/-- Rounding up or not, as the mode says of the sign, the floor and the place, rounds the signed value. -/
theorem rounds_of_holds (h : pl.Holds n y) (rm : RoundingMode) (neg : Bool) :
    rm.Rounds ((if neg then -1 else 1) * y) (signedInt neg (n + if rm.up neg n pl then 1 else 0)) := by
  have hdist : ∀ N : Nat, |(if neg then -1 else 1) * y - signedInt neg N| = |y - N| := fun N => by
    rw [signedInt_cast, ← mul_sub, abs_sign_mul]
  cases rm with
  | rtz => exact rounds_rtz h neg
  | rdn =>
    rw [up_rdn]
    cases neg with
    | false => simp [RoundingMode.Rounds, signedInt, h.floor_eq]
    | true => simp [RoundingMode.Rounds, signedInt, Int.floor_neg, h.ceil_eq]
  | rup =>
    rw [up_rup]
    cases neg with
    | false => simp [RoundingMode.Rounds, signedInt, h.ceil_eq]
    | true => simp [RoundingMode.Rounds, signedInt, Int.ceil_neg, h.floor_eq]
  | rne =>
    obtain ⟨hnear, htie⟩ := h.nearest (N := n + if RoundingMode.rne.up neg n pl then 1 else 0)
      (by rintro (rfl | rfl) <;> rfl) (by rintro rfl; split <;> simp) (by rintro rfl; rfl)
    simp only [RoundingMode.Rounds, hdist, signedInt_emod_two]
    refine ⟨hnear, fun h0 => ?_⟩
    obtain rfl := htie h0
    simp only [RoundingMode.up, beq_iff_eq]
    split <;> omega
  | rmm =>
    obtain ⟨hnear, htie⟩ := h.nearest (N := n + if RoundingMode.rmm.up neg n pl then 1 else 0)
      (by rintro (rfl | rfl) <;> rfl) (by rintro rfl; exact .inr rfl) (by rintro rfl; rfl)
    simp only [RoundingMode.Rounds, hdist, abs_sign_mul, abs_signedInt_cast]
    refine ⟨hnear, fun h0 => ?_⟩
    obtain rfl := htie h0
    rw [abs_of_nonneg h.nonneg, show y = n + 1 / 2 from h]
    norm_num [RoundingMode.up]

/-! ### One integer only -/

/-- Two integers within a half of a real are the same, or neighbours it ties between. -/
theorem eq_or_tie {n n' : ℤ} (h : |y - n| ≤ 1 / 2) (h' : |y - n'| ≤ 1 / 2) :
    n = n' ∨ n' = n + 1 ∧ y = n + 1 / 2 ∨ n = n' + 1 ∧ y = n' + 1 / 2 := by
  obtain ⟨hlo, hhi⟩ := abs_le.mp h
  obtain ⟨hlo', hhi'⟩ := abs_le.mp h'
  have hle : n' ≤ n + 1 := by exact_mod_cast (by linarith : (n' : ℝ) ≤ n + 1)
  have hle' : n ≤ n' + 1 := by exact_mod_cast (by linarith : (n : ℝ) ≤ n' + 1)
  rcases lt_trichotomy n n' with hlt | heq | hgt
  · have hn : n' = n + 1 := by omega
    subst hn
    push_cast at hlo'
    exact .inr (.inl ⟨rfl, by linarith⟩)
  · exact .inl heq
  · have hn : n = n' + 1 := by omega
    subst hn
    push_cast at hlo
    exact .inr (.inr ⟨rfl, by linarith⟩)

/-- A tie between `n` and `n + 1` goes to one of them: the even one, or the one away from zero. -/
theorem not_rounds_both {n : ℤ} (hrm : rm = .rne ∨ rm = .rmm) (h : rm.Rounds (n + 1 / 2) n)
    (h' : rm.Rounds (n + 1 / 2) (n + 1)) : False := by
  have hd : |(n + 1 / 2 : ℝ) - n| = 1 / 2 := by norm_num
  have hd' : |(n + 1 / 2 : ℝ) - (n + 1 : ℤ)| = 1 / 2 := by
    rw [Int.cast_add, Int.cast_one, add_sub_add_left_eq_sub]
    norm_num
  rcases hrm with rfl | rfl
  · have heven := h.2 hd
    have heven' := h'.2 hd'
    omega
  · have hlt := sq_lt_sq.mpr (h.2 hd)
    have hlt' := sq_lt_sq.mpr (h'.2 hd')
    push_cast at hlt hlt'
    have hneg : n < 0 := by exact_mod_cast (by linarith : (n : ℝ) < 0)
    have hpos : -1 < n := by exact_mod_cast (by linarith : (-1 : ℝ) < n)
    omega

theorem RoundingMode.Rounds.unique {n n' : ℤ} (h : rm.Rounds y n) (h' : rm.Rounds y n') : n = n' := by
  cases rm with
  | rtz | rdn | rup => exact h.trans h'.symm
  | rne =>
    rcases eq_or_tie h.1 h'.1 with heq | ⟨rfl, rfl⟩ | ⟨rfl, rfl⟩
    · exact heq
    · exact (not_rounds_both (.inl rfl) h h').elim
    · exact (not_rounds_both (.inl rfl) h' h).elim
  | rmm =>
    rcases eq_or_tie h.1 h'.1 with heq | ⟨rfl, rfl⟩ | ⟨rfl, rfl⟩
    · exact heq
    · exact (not_rounds_both (.inr rfl) h h').elim
    · exact (not_rounds_both (.inr rfl) h' h).elim

/-! ### Magnitudes -/

/-- A magnitude rounded in a unit, with its sign. -/
theorem Mag.roundAt_rounds (hg : g.Wf) (rm : RoundingMode) (neg : Bool) (k : Int) :
    rm.Rounds ((if neg then -1 else 1) * (g.real / 2 ^ k)) (signedInt neg (g.roundAt rm neg k).1) :=
  rounds_of_holds (Mag.units_holds hg k) rm neg

/-- Whether it was exact. -/
theorem Mag.roundAt_exact_iff (hg : g.Wf) (rm : RoundingMode) (neg : Bool) (k : Int) :
    (g.roundAt rm neg k).2 = true ↔ g.real / 2 ^ k = (g.roundAt rm neg k).1 := by
  have h := Mag.units_holds hg k
  by_cases hpl : (g.units k).2 = .exact
  · refine iff_of_true (beq_iff_eq.mpr hpl) ?_
    rw [hpl] at h
    simpa [Mag.roundAt, hpl, up_exact, Place.Holds] using h
  · exact iff_of_false (fun h' => hpl (beq_iff_eq.mp h')) (h.ne_of_not_exact hpl _)

theorem Mag.le_roundAt (hg : g.Wf) (h : (a : ℝ) ≤ g.real / 2 ^ k) : a ≤ (g.roundAt rm neg k).1 := by
  have hfloor : (a : ℤ) ≤ ⌊g.real / 2 ^ k⌋ := Int.le_floor.mpr (by rwa [Int.cast_natCast])
  rw [(Mag.units_holds hg k).floor_eq, Int.ofNat_le] at hfloor
  exact hfloor.trans (Nat.le_add_right ..)

theorem Mag.roundAt_le (hg : g.Wf) (h : g.real / 2 ^ k < a) : (g.roundAt rm neg k).1 ≤ a := by
  have hfloor : ⌊g.real / 2 ^ k⌋ < (a : ℤ) := Int.floor_lt.mpr (by rwa [Int.cast_natCast])
  rw [(Mag.units_holds hg k).floor_eq, Int.ofNat_lt] at hfloor
  simp only [Mag.roundAt]
  split <;> omega

end
end Sys2Proof.Machine
end

section
/-! The bits of a format as numbers (47_f.md R807): the magnitudes in rising order, in units of the smallest one, and
the value of a sign on a magnitude. -/

namespace Sys2Proof.Machine

section
variable {t : Fmt} {neg : Bool} {bits mag E N : Nat}

/-! ### The formats -/

theorem Fmt.one_le_p (t : Fmt) : 1 ≤ t.p := by cases t <;> decide

theorem Fmt.two_pow_p (t : Fmt) : 2 ^ t.p = 2 * 2 ^ (t.p - 1) := by
  rw [← Nat.pow_succ', Nat.succ_eq_add_one, Nat.sub_add_cancel t.one_le_p]

theorem Fmt.two_pow_signBit (t : Fmt) : 2 ^ t.signBit = (t.expMax + 1) * 2 ^ (t.p - 1) := by cases t <;> rfl

theorem Fmt.expMax_eq (t : Fmt) : (t.expMax : Int) = 3 - 2 * t.emin := by cases t <;> rfl

theorem Fmt.two_le_expMax (t : Fmt) : 2 ≤ t.expMax := by cases t <;> decide

theorem Fmt.infBits_pos (t : Fmt) : 0 < t.infBits := by cases t <;> decide

theorem Fmt.infBits_lt (t : Fmt) : t.infBits < 2 ^ t.signBit := by cases t <;> decide

/-- The exponent of the smallest subnormal number, 2^(emin − p + 1). -/
def Fmt.unitExp (t : Fmt) : Int := t.emin - (t.p - 1)

/-! ### Magnitudes -/

/-- The magnitude a pattern encodes, in units of the smallest subnormal number. -/
def Fmt.unitsOf (t : Fmt) (mag : Nat) : Nat :=
  if mag / 2 ^ (t.p - 1) = 0 then mag % 2 ^ (t.p - 1)
  else (2 ^ (t.p - 1) + mag % 2 ^ (t.p - 1)) * 2 ^ (mag / 2 ^ (t.p - 1) - 1)

/-- `N` units of 2^E, packed: below 2^(p−1) only with E = 0, and up to 2^p, where the carry runs into the exponent. -/
theorem Fmt.unitsOf_pack (hN : N ≤ 2 ^ t.p) (hE : E = 0 ∨ 2 ^ (t.p - 1) ≤ N) :
    t.unitsOf (E * 2 ^ (t.p - 1) + N) = N * 2 ^ E := by
  have hpos : 0 < 2 ^ (t.p - 1) := Nat.two_pow_pos _
  rw [t.two_pow_p] at hN
  unfold Fmt.unitsOf
  generalize 2 ^ (t.p - 1) = P at *
  rcases Nat.lt_or_ge N P with hlt | hge
  · obtain rfl : E = 0 := hE.resolve_right (by omega)
    rw [Nat.zero_mul, Nat.zero_add, Nat.div_eq_of_lt hlt, if_pos rfl, Nat.mod_eq_of_lt hlt, Nat.pow_zero, Nat.mul_one]
  · rcases Nat.lt_or_ge N (2 * P) with hlt2 | hge2
    · have hmag : E * P + N = (N - P) + P * (E + 1) := by
        rw [Nat.mul_succ, Nat.mul_comm]
        omega
      rw [hmag, Nat.add_mul_div_left _ _ hpos, Nat.add_mul_mod_self_left, Nat.div_eq_of_lt (by omega),
        Nat.mod_eq_of_lt (by omega), if_neg (by omega)]
      congr 1
      · omega
      · congr 1
        omega
    · have hmag : E * P + N = P * (E + 2) := by
        rw [Nat.mul_add, Nat.mul_comm E P]
        omega
      rw [hmag, Nat.mul_div_cancel_left _ hpos, Nat.mul_mod_right, if_neg (by omega), Nat.add_zero,
        show N = P * 2 by omega, Nat.mul_assoc, ← Nat.pow_succ']
      rfl

theorem Fmt.exists_pack (t : Fmt) (mag : Nat) :
    ∃ E N, mag = E * 2 ^ (t.p - 1) + N ∧ N < 2 ^ t.p ∧ (E = 0 ∨ 2 ^ (t.p - 1) ≤ N) := by
  rw [t.two_pow_p]
  have hpos : 0 < 2 ^ (t.p - 1) := Nat.two_pow_pos _
  generalize 2 ^ (t.p - 1) = P at *
  rcases Nat.lt_or_ge mag P with hlt | hge
  · exact ⟨0, mag, by omega, by omega, .inl rfl⟩
  · have hdiv : 1 ≤ mag / P := (Nat.one_le_div_iff hpos).mpr hge
    have hmod := Nat.mod_lt mag hpos
    refine ⟨mag / P - 1, P + mag % P, ?_, by omega, .inr (by omega)⟩
    have h := Nat.div_add_mod mag P
    obtain ⟨k, hk⟩ : ∃ k, mag / P = k + 1 := ⟨mag / P - 1, by omega⟩
    rw [hk, Nat.mul_succ] at h
    rw [hk, Nat.add_sub_cancel, Nat.mul_comm]
    omega

/-- Rising patterns encode rising magnitudes. -/
theorem Fmt.unitsOf_strictMono (t : Fmt) : StrictMono t.unitsOf := by
  refine strictMono_nat_of_lt_succ fun mag => ?_
  obtain ⟨E, N, rfl, hN, hE⟩ := t.exists_pack mag
  rw [Nat.add_assoc, Fmt.unitsOf_pack hN.le hE, Fmt.unitsOf_pack hN (hE.imp_right Nat.le_succ_of_le)]
  exact Nat.mul_lt_mul_of_pos_right (Nat.lt_succ_self N) (Nat.two_pow_pos _)

/-- The largest finite magnitude (47_f.md R807). -/
theorem Fmt.unitsOf_infBits_pred (t : Fmt) : t.unitsOf (t.infBits - 1) = (2 ^ t.p - 1) * 2 ^ (t.expMax - 2) := by
  have hP : 0 < 2 ^ (t.p - 1) := Nat.two_pow_pos _
  have hmag : t.infBits - 1 = (t.expMax - 2) * 2 ^ (t.p - 1) + (2 ^ t.p - 1) := by
    have hsplit : t.expMax * 2 ^ (t.p - 1) = (t.expMax - 2) * 2 ^ (t.p - 1) + 2 ^ t.p := by
      rw [t.two_pow_p, ← Nat.add_mul, Nat.sub_add_cancel t.two_le_expMax]
    rw [Fmt.infBits, hsplit, Nat.add_sub_assoc (Nat.two_pow_pos _)]
  rw [hmag, Fmt.unitsOf_pack (Nat.sub_le ..) (.inr (by rw [t.two_pow_p]; omega))]

/-! ### Signs -/

theorem Fmt.withSign_testBit (h : mag < 2 ^ t.signBit) : (t.withSign neg mag).testBit t.signBit = neg := by
  cases neg with
  | false => exact Nat.testBit_lt_two_pow h
  | true =>
    rw [Fmt.withSign, if_pos rfl, Nat.testBit_two_pow_add_eq, Nat.testBit_lt_two_pow h]
    rfl

theorem Fmt.withSign_mod (h : mag < 2 ^ t.signBit) : t.withSign neg mag % 2 ^ t.signBit = mag := by
  cases neg with
  | false => exact Nat.mod_eq_of_lt h
  | true => rw [Fmt.withSign, if_pos rfl, Nat.add_mod_left, Nat.mod_eq_of_lt h]

theorem Fmt.withSign_lt (h : mag < 2 ^ t.signBit) : t.withSign neg mag < 2 ^ (t.signBit + 1) := by
  rw [Nat.pow_succ, Fmt.withSign]
  split <;> omega

/-- A pattern is a sign on a magnitude. -/
theorem Fmt.withSign_of_bits (h : bits < 2 ^ (t.signBit + 1)) :
    t.withSign (bits.testBit t.signBit) (bits % 2 ^ t.signBit) = bits := by
  rcases Nat.lt_or_ge bits (2 ^ t.signBit) with hlt | hge
  · rw [Nat.testBit_lt_two_pow hlt, Nat.mod_eq_of_lt hlt]
    rfl
  · obtain ⟨r, rfl⟩ := Nat.exists_eq_add_of_le hge
    have hr : r < 2 ^ t.signBit := by
      rw [Nat.pow_succ] at h
      omega
    rw [Nat.testBit_two_pow_add_eq, Nat.testBit_lt_two_pow hr, Nat.add_mod_left, Nat.mod_eq_of_lt hr]
    rfl

/-! ### Values -/

/-- The value of a pattern, from its sign and its magnitude. -/
theorem Fmt.value_eq (t : Fmt) (bits : Nat) : t.value bits =
    if bits % 2 ^ t.signBit / 2 ^ (t.p - 1) = t.expMax then
      if bits % 2 ^ t.signBit % 2 ^ (t.p - 1) = 0 then .inf (bits.testBit t.signBit)
      else .nan (!(bits % 2 ^ t.signBit % 2 ^ (t.p - 1)).testBit (t.p - 2))
    else if bits % 2 ^ t.signBit / 2 ^ (t.p - 1) = 0 then
      .fin (bits.testBit t.signBit) (bits % 2 ^ t.signBit % 2 ^ (t.p - 1)) t.unitExp
    else
      .fin (bits.testBit t.signBit) (2 ^ (t.p - 1) + bits % 2 ^ t.signBit % 2 ^ (t.p - 1))
        (t.unitExp + ((bits % 2 ^ t.signBit / 2 ^ (t.p - 1) : ℕ) - 1)) := by
  have hexpo : bits / 2 ^ (t.p - 1) % (t.expMax + 1) = bits % 2 ^ t.signBit / 2 ^ (t.p - 1) := by
    rw [t.two_pow_signBit, Nat.mod_mul_left_div_self]
  have hfrac : bits % 2 ^ (t.p - 1) = bits % 2 ^ t.signBit % 2 ^ (t.p - 1) :=
    (Nat.mod_mod_of_dvd _ (t.two_pow_signBit ▸ Nat.dvd_mul_left ..)).symm
  rw [← hexpo, ← hfrac]
  rfl

theorem Fmt.value_of_lt (h : bits % 2 ^ t.signBit < t.infBits) :
    ∃ m e, t.value bits = .fin (bits.testBit t.signBit) m e ∧
      (m : ℝ) * 2 ^ e = t.unitsOf (bits % 2 ^ t.signBit) * 2 ^ t.unitExp := by
  have hexpo : bits % 2 ^ t.signBit / 2 ^ (t.p - 1) < t.expMax := (Nat.div_lt_iff_lt_mul (Nat.two_pow_pos _)).mpr h
  rw [t.value_eq, if_neg hexpo.ne]
  unfold Fmt.unitsOf
  generalize bits % 2 ^ t.signBit = mag at *
  split
  · exact ⟨_, _, rfl, rfl⟩
  · next h0 =>
    refine ⟨_, _, rfl, ?_⟩
    obtain ⟨k, hk⟩ := Nat.exists_eq_succ_of_ne_zero h0
    rw [hk, Nat.cast_mul, Nat.cast_pow, Nat.cast_ofNat, mul_assoc, Nat.cast_succ, Int.add_sub_cancel,
      zpow_add₀ (two_ne_zero' ℝ), zpow_natCast, Nat.succ_sub_one]
    ring

theorem Fmt.value_of_eq (h : bits % 2 ^ t.signBit = t.infBits) : t.value bits = .inf (bits.testBit t.signBit) := by
  rw [t.value_eq, h, Fmt.infBits, Nat.mul_div_cancel _ (Nat.two_pow_pos _), if_pos rfl, Nat.mul_mod_left, if_pos rfl]

theorem Fmt.value_of_gt (h : t.infBits < bits % 2 ^ t.signBit) : (t.value bits).isNaN = true := by
  have hP : 0 < 2 ^ (t.p - 1) := Nat.two_pow_pos _
  have hlt : bits % 2 ^ t.signBit < (t.expMax + 1) * 2 ^ (t.p - 1) :=
    t.two_pow_signBit ▸ Nat.mod_lt _ (Nat.two_pow_pos _)
  have hexpo : bits % 2 ^ t.signBit / 2 ^ (t.p - 1) = t.expMax := by
    refine Nat.le_antisymm (Nat.le_of_lt_succ ((Nat.div_lt_iff_lt_mul hP).mpr hlt)) ?_
    exact (Nat.le_div_iff_mul_le hP).mpr h.le
  have hfrac : bits % 2 ^ t.signBit % 2 ^ (t.p - 1) ≠ 0 := fun h0 => by
    have hmag := Nat.div_add_mod (bits % 2 ^ t.signBit) (2 ^ (t.p - 1))
    rw [hexpo, h0, Nat.add_zero, Nat.mul_comm] at hmag
    exact h.ne hmag
  rw [t.value_eq, if_pos hexpo, if_neg hfrac]
  rfl

end
end Sys2Proof.Machine
end

section
/-! Rounding a magnitude to a format is rounding its real value once, as 47_f.md R807 says. -/

namespace Sys2Proof.Machine

section
variable {t : Fmt} {rm : RoundingMode} {neg : Bool} {g : Mag} {e : Int}

/-- The significand of a magnitude rounded to the format, in units of its last place, and whether it was exact. -/
def Fmt.signif (t : Fmt) (rm : RoundingMode) (neg : Bool) (g : Mag) : Nat × Bool :=
  g.roundAt rm neg (t.expOf g - (t.p - 1))

theorem round_of_overflow (h : t.infBits ≤ t.pack (t.expOf g) (t.signif rm neg g).1) :
    t.round rm neg g = { bits := t.withSign neg (t.overflowMag rm neg), flags := flagOF ||| flagNX } := if_pos h

theorem round_of_finite (h : ¬t.infBits ≤ t.pack (t.expOf g) (t.signif rm neg g).1) :
    t.round rm neg g =
      { bits := t.withSign neg (t.pack (t.expOf g) (t.signif rm neg g).1)
        flags := flagIf (!(t.signif rm neg g).2 && t.tiny rm neg g) flagUF |||
          flagIf (!(t.signif rm neg g).2) flagNX } :=
  if_neg h

theorem overflowMag_eq (t : Fmt) (rm : RoundingMode) (neg : Bool) :
    t.overflowMag rm neg = if rm.overflowsToInf neg then t.infBits else t.infBits - 1 := by
  cases rm <;> cases neg <;> rfl

/-- The value of a sign on a finite magnitude. -/
theorem value_withSign {mag : Nat} (h : mag < t.infBits) :
    (t.value (t.withSign neg mag)).Real ((if neg then -1 else 1) * (t.unitsOf mag * 2 ^ t.unitExp)) := by
  have hmod : t.withSign neg mag % 2 ^ t.signBit = mag := Fmt.withSign_mod (h.trans t.infBits_lt)
  obtain ⟨m, e, hv, hme⟩ := Fmt.value_of_lt (hmod.symm ▸ h)
  rw [hv, Fmt.withSign_testBit (h.trans t.infBits_lt), FVal.real_fin, finReal, mul_assoc, hme, hmod]

/-! ### The largest finite value -/

theorem isMaxFinite_unitsOf (t : Fmt) : t.IsMaxFinite (t.unitsOf (t.infBits - 1) * 2 ^ t.unitExp) := by
  have hunits : (t.unitsOf (t.infBits - 1) : ℝ) = (2 ^ t.p - 1) * 2 ^ (t.expMax - 2) := by
    rw [t.unitsOf_infBits_pred, Nat.cast_mul, Nat.cast_sub Nat.one_le_two_pow]
    push_cast
    rfl
  have hexp : (2 : ℝ) ^ (t.expMax - 2) * 2 ^ t.unitExp = 2 ^ (1 - t.p : Int) * 2 ^ (1 - t.emin) := by
    rw [← zpow_natCast, Nat.cast_sub t.two_le_expMax, ← zpow_add₀ (two_ne_zero' ℝ), ← zpow_add₀ (two_ne_zero' ℝ),
      t.expMax_eq, Fmt.unitExp]
    congr 1
    push_cast
    ring
  have hlead : (2 : ℝ) - 2 ^ (1 - t.p : Int) = (2 ^ t.p - 1) * 2 ^ (1 - t.p : Int) := by
    rw [sub_mul, one_mul, ← zpow_natCast, ← zpow_add₀ (two_ne_zero' ℝ), add_sub_cancel, zpow_one]
  rw [Fmt.IsMaxFinite, hunits, mul_assoc, hexp, hlead, mul_assoc]

section
variable (hg : g.Wf) (hpos : 0 < g.real)
include hg hpos

/-! ### The rounded significand -/

/-- With an exponent no less than its own, a magnitude rounds to at most 2^p units. -/
theorem Mag.roundAt_le_two_pow (he : g.floorLog2 ≤ e) : (g.roundAt rm neg (e - (t.p - 1))).1 ≤ 2 ^ t.p := by
  refine Mag.roundAt_le hg ?_
  rw [div_lt_iff₀ (by positivity), Nat.cast_pow, Nat.cast_ofNat, ← zpow_natCast, ← zpow_add₀ (two_ne_zero' ℝ),
    show (t.p : Int) + (e - (t.p - 1)) = e + 1 by ring]
  exact (Mag.floorLog2_spec hg hpos).2.trans_le (zpow_le_zpow_right₀ one_le_two (by omega))

/-- With its own exponent, to at least 2^(p−1) units. -/
theorem Mag.two_pow_le_roundAt : 2 ^ (t.p - 1) ≤ (g.roundAt rm neg (g.floorLog2 - (t.p - 1))).1 := by
  refine Mag.le_roundAt hg ?_
  rw [le_div_iff₀ (by positivity), Nat.cast_pow, Nat.cast_ofNat, ← zpow_natCast, ← zpow_add₀ (two_ne_zero' ℝ),
    Nat.cast_sub t.one_le_p, Nat.cast_one, add_sub_cancel]
  exact (Mag.floorLog2_spec hg hpos).1

/-- Tininess after rounding to p bits (47_f.md R807). -/
theorem tiny_iff : t.tiny rm neg g = true ↔
    ((g.roundAt rm neg (g.floorLog2 - (t.p - 1))).1 : ℝ) * 2 ^ (g.floorLog2 - (t.p - 1)) < 2 ^ t.emin := by
  have hlow : (2 : ℝ) ^ g.floorLog2 ≤
      (g.roundAt rm neg (g.floorLog2 - (t.p - 1))).1 * 2 ^ (g.floorLog2 - (t.p - 1)) := calc
    (2 : ℝ) ^ g.floorLog2 = (2 ^ (t.p - 1) : ℕ) * 2 ^ (g.floorLog2 - (t.p - 1)) := by
      rw [Nat.cast_pow, Nat.cast_ofNat, ← zpow_natCast, ← zpow_add₀ (two_ne_zero' ℝ), Nat.cast_sub t.one_le_p,
        Nat.cast_one, add_sub_cancel]
    _ ≤ _ := mul_le_mul_of_nonneg_right (Nat.cast_le.mpr (Mag.two_pow_le_roundAt hg hpos)) (by positivity)
  have hhigh : ((2 ^ t.p : ℕ) : ℝ) * 2 ^ (g.floorLog2 - (t.p - 1)) = 2 ^ (g.floorLog2 + 1) := by
    rw [Nat.cast_pow, Nat.cast_ofNat, ← zpow_natCast, ← zpow_add₀ (two_ne_zero' ℝ)]
    congr 1
    ring
  have hle : (g.roundAt rm neg (g.floorLog2 - (t.p - 1))).1 ≤ 2 ^ t.p := Mag.roundAt_le_two_pow hg hpos le_rfl
  simp only [Fmt.tiny]
  generalize (g.roundAt rm neg (g.floorLog2 - (t.p - 1))).1 = n at *
  generalize g.floorLog2 = l at *
  have hunit : (0 : ℝ) < 2 ^ (l - (t.p - 1)) := by positivity
  rcases lt_trichotomy l (t.emin - 1) with hlt | rfl | hgt
  · refine iff_of_true (by simp [hlt.ne, show l < t.emin by omega]) ?_
    calc
      (n : ℝ) * 2 ^ (l - (t.p - 1)) ≤ (2 ^ t.p : ℕ) * 2 ^ (l - (t.p - 1)) :=
        mul_le_mul_of_nonneg_right (Nat.cast_le.mpr hle) hunit.le
      _ = 2 ^ (l + 1) := hhigh
      _ < 2 ^ t.emin := zpow_lt_zpow_right₀ one_lt_two (by omega)
  · rw [Int.sub_add_cancel] at hhigh
    rw [← hhigh, mul_lt_mul_iff_left₀ hunit, Nat.cast_lt]
    simp [lt_iff_le_and_ne, hle]
  · refine iff_of_false (by simp [show ¬l < t.emin by omega]) (not_lt.mpr (le_trans ?_ hlow))
    exact zpow_le_zpow_right₀ one_le_two (by omega)

/-! ### The result -/

/-- The packed magnitude is the rounded one. -/
theorem unitsOf_pack_signif :
    (t.unitsOf (t.pack (t.expOf g) (t.signif rm neg g).1) : ℝ) * 2 ^ t.unitExp =
      (t.signif rm neg g).1 * 2 ^ (t.expOf g - (t.p - 1)) := by
  have hemin : t.emin ≤ t.expOf g := le_max_right ..
  have hle : (t.signif rm neg g).1 ≤ 2 ^ t.p := Mag.roundAt_le_two_pow hg hpos (le_max_left ..)
  have hE : (t.expOf g - t.emin).toNat = 0 ∨ 2 ^ (t.p - 1) ≤ (t.signif rm neg g).1 := by
    rcases le_total g.floorLog2 t.emin with hsub | hnorm
    · rw [Fmt.expOf, max_eq_right hsub]
      exact .inl (by simp)
    · rw [Fmt.signif, Fmt.expOf, max_eq_left hnorm]
      exact .inr (Mag.two_pow_le_roundAt hg hpos)
  rw [Fmt.pack, Fmt.unitsOf_pack hle hE, Nat.cast_mul, mul_assoc, Nat.cast_pow, Nat.cast_ofNat, ← zpow_natCast,
    ← zpow_add₀ (two_ne_zero' ℝ), Int.toNat_of_nonneg (by omega), Fmt.unitExp]
  congr 2
  ring

/-- Beyond the largest finite value the packed bits are at least those of ∞. -/
theorem overflow_iff :
    t.unitsOf (t.infBits - 1) * 2 ^ t.unitExp < ((t.signif rm neg g).1 : ℝ) * 2 ^ (t.expOf g - (t.p - 1)) ↔
      t.infBits ≤ t.pack (t.expOf g) (t.signif rm neg g).1 := by
  have hinf := t.infBits_pos
  rw [← unitsOf_pack_signif hg hpos, mul_lt_mul_iff_left₀ (by positivity), Nat.cast_lt, t.unitsOf_strictMono.lt_iff_lt]
  omega

omit hpos in
/-- Whether the rounding was exact. -/
theorem signif_exact_iff : (t.signif rm neg g).2 = true ↔
    signedInt neg (t.signif rm neg g).1 * (2 : ℝ) ^ (t.expOf g - (t.p - 1)) = (if neg then -1 else 1) * g.real := by
  have hs : (if neg then -1 else 1 : ℝ) ≠ 0 := by cases neg <;> norm_num
  rw [Fmt.signif, Mag.roundAt_exact_iff hg, div_eq_iff (by positivity), signedInt_cast, mul_assoc, mul_right_inj' hs,
    eq_comm]

/-- ROUNDING ONCE: the result is that of rounding the real value of the sign and the magnitude (47_f.md R807). -/
theorem round_roundsTo : t.RoundsTo rm ((if neg then -1 else 1) * g.real) (t.round rm neg g) := by
  have hsign : (if neg then -1 else 1) * g.real < 0 ↔ neg = true := by cases neg <;> simp [hpos, hpos.le]
  obtain ⟨hlo, hhi⟩ := Mag.floorLog2_spec hg hpos
  have hrounds : ∀ k, rm.Rounds ((if neg then -1 else 1) * g.real / 2 ^ k) (signedInt neg (g.roundAt rm neg k).1) :=
    fun k => mul_div_assoc _ g.real _ ▸ Mag.roundAt_rounds hg rm neg k
  have hexp : ∀ k : Int, k - t.p + 1 = k - (t.p - 1) := fun k => by ring
  refine ⟨g.floorLog2, t.expOf g, signedInt neg (t.signif rm neg g).1,
    signedInt neg (g.roundAt rm neg (g.floorLog2 - (t.p - 1))).1, _, ?_, ?_, rfl, isMaxFinite_unitsOf t, ?_, ?_, ?_⟩
  · rwa [abs_sign_mul, abs_of_pos hpos]
  · rwa [abs_sign_mul, abs_of_pos hpos]
  · exact hexp _ ▸ hrounds _
  · exact hexp _ ▸ hrounds _
  · simp only [hexp, abs_signedInt_cast, ← not_lt, overflow_iff hg hpos, ← signif_exact_iff hg, ← tiny_iff hg hpos]
    refine ⟨fun h => ?_, fun h => ?_⟩
    · rw [round_of_overflow (not_lt.mp h)]
      refine ⟨fun neg' hneg' => ?_, rfl⟩
      rw [Bool.eq_iff_iff.mpr (hneg'.trans hsign), overflowMag_eq]
    · have hlt := not_not.mp h
      have hinexact : signedInt neg (t.signif rm neg g).1 * (2 : ℝ) ^ (t.expOf g - (t.p - 1)) ≠
          (if neg then -1 else 1) * g.real → (t.signif rm neg g).2 = false := fun hx =>
        Bool.eq_false_iff.mpr fun h2 => hx ((signif_exact_iff hg).mp h2)
      rw [round_of_finite (not_le.mpr hlt)]
      refine ⟨?_, t.withSign_lt (hlt.trans t.infBits_lt), ?_, fun hx => ?_, fun hx ht => ?_, fun hx ht => ?_⟩
      · rw [signedInt_cast, mul_assoc, ← unitsOf_pack_signif hg hpos]
        exact value_withSign hlt
      · rw [Fmt.withSign_testBit (hlt.trans t.infBits_lt), hsign]
      · simp [hx, flagIf]
      · simp [hinexact hx, ht, flagIf]
      · simp [hinexact hx, ht, flagIf]

end

end
end Sys2Proof.Machine
end

section
/-! The operations on numbers are the exact real result rounded once (47_f.md R807, R809, R813, R814, R830). -/

namespace Sys2Proof.Machine

section
variable {t : Fmt} {rm : RoundingMode} {a b c : FVal} {neg n na nb : Bool} {m ma mb : Nat} {e ea eb : Int} {x y z : ℝ}

/-! ### Magnitudes of the results -/

theorem dyadic_wf (m : Nat) (e : Int) : (dyadic m e).Wf := scale_snd_pos one_pos e

theorem dyadic_real (m : Nat) (e : Int) : (dyadic m e).real = m * 2 ^ e := by
  rw [dyadic, Mag.real, scale_div, Nat.cast_one, div_one]

/-- A number that is not zero, rounded. -/
theorem round_dyadic_roundsTo (hm : m ≠ 0) : t.RoundsTo rm (finReal n m e) (t.round rm n (dyadic m e)) := by
  have hpos : 0 < (dyadic m e).real := by
    rw [dyadic_real]
    positivity
  have h := round_roundsTo (t := t) (rm := rm) (neg := n) (dyadic_wf m e) hpos
  rwa [dyadic_real, ← mul_assoc] at h

theorem roundFin_roundsTo (h : finReal n m e ≠ 0) : t.RoundsTo rm (finReal n m e) (t.roundFin rm n m e) := by
  have hm : m ≠ 0 := mt finReal_eq_zero.mpr h
  rw [Fmt.roundFin, if_neg hm]
  exact round_dyadic_roundsTo hm

/-- An integer count of a unit. -/
theorem finReal_natAbs (k : Int) (e : Int) : finReal (decide (k < 0)) k.natAbs e = k * 2 ^ e := by
  rw [finReal, ← Int.cast_natCast, Int.natCast_natAbs]
  congr 1
  rcases lt_or_ge k 0 with hneg | hnn
  · simp [hneg, abs_of_neg (Int.cast_lt_zero.mpr hneg : (k : ℝ) < 0)]
  · simp [not_lt.mpr hnn, abs_of_nonneg (Int.cast_nonneg hnn : (0 : ℝ) ≤ k)]

/-! ### The operations -/

theorem addFin_roundsTo (h : finReal na ma ea + finReal nb mb eb ≠ 0) :
    t.RoundsTo rm (finReal na ma ea + finReal nb mb eb) (t.addFin rm na ma ea nb mb eb) := by
  have hsum : align na ma ea (min ea eb) + align nb mb eb (min ea eb) ≠ 0 := mt align_add_eq_zero.mp h
  have hround := round_dyadic_roundsTo (t := t) (rm := rm) (e := min ea eb)
    (n := decide (align na ma ea (min ea eb) + align nb mb eb (min ea eb) < 0)) (Int.natAbs_ne_zero.mpr hsum)
  rw [finReal_natAbs, align_add_mul] at hround
  have heq : t.addFin rm na ma ea nb mb eb = t.round rm _ _ := if_neg hsum
  rwa [heq]

theorem finReal_div (na nb : Bool) (ma mb : Nat) (ea eb : Int) :
    finReal na ma ea / finReal nb mb eb = (if na != nb then -1 else 1) * (ma / mb * 2 ^ (ea - eb)) := by
  rw [finReal, finReal, zpow_sub₀ (two_ne_zero' ℝ)]
  cases na <;> cases nb <;> simp [mul_div_mul_comm, neg_div, div_neg]

theorem divFin_roundsTo (ha : finReal na ma ea ≠ 0) (hb : finReal nb mb eb ≠ 0) :
    t.RoundsTo rm (finReal na ma ea / finReal nb mb eb) (t.divFin rm (na != nb) ma ea mb eb) := by
  have hma : ma ≠ 0 := mt finReal_eq_zero.mpr ha
  have hmb : mb ≠ 0 := mt finReal_eq_zero.mpr hb
  have hwf : (Mag.ratio (scale ma mb (ea - eb)).1 (scale ma mb (ea - eb)).2).Wf :=
    scale_snd_pos (Nat.pos_of_ne_zero hmb) _
  have hreal : (Mag.ratio (scale ma mb (ea - eb)).1 (scale ma mb (ea - eb)).2).real = ma / mb * 2 ^ (ea - eb) :=
    scale_div ..
  have heq : t.divFin rm (na != nb) ma ea mb eb = t.round rm _ _ := (if_neg hmb).trans (if_neg hma)
  rw [finReal_div, heq, ← hreal]
  refine round_roundsTo hwf ?_
  rw [hreal]
  positivity

theorem sqrt_roundsTo (h : 0 < finReal n m e) : t.RoundsTo rm √(finReal n m e) (t.sqrt rm (.fin n m e)) := by
  have hm : m ≠ 0 := mt finReal_eq_zero.mpr h.ne'
  obtain rfl : n = false := Bool.eq_false_iff.mpr fun hn => h.not_gt ((finReal_neg_iff hm).mpr hn)
  have hwf : (Mag.root (scale m 1 e).1 (scale m 1 e).2).Wf := scale_snd_pos one_pos e
  have hreal : (Mag.root (scale m 1 e).1 (scale m 1 e).2).real = √(finReal false m e) := by
    rw [Mag.real, scale_div, Nat.cast_one, div_one, finReal_false]
  have heq : t.sqrt rm (.fin false m e) = t.round rm false _ := (if_neg hm).trans (if_neg Bool.false_ne_true)
  have hround := round_roundsTo (t := t) (rm := rm) (neg := false) hwf (hreal ▸ Real.sqrt_pos.mpr h)
  rwa [if_neg Bool.false_ne_true, one_mul, hreal, ← heq] at hround

/-- Settles O44: each operation rounds the magnitude of its exact result. -/
theorem operationsRoundOnce : Obligations.OperationsRoundOnce := by
  unfold Obligations.OperationsRoundOnce
  intro t rm a b c x y z hx hy hz
  obtain ⟨na, ma, ea, rfl, rfl⟩ := hx.exists_fin
  obtain ⟨nb, mb, eb, rfl, rfl⟩ := hy.exists_fin
  obtain ⟨nc, mc, ec, rfl, rfl⟩ := hz.exists_fin
  refine ⟨addFin_roundsTo, fun h => ?_, fun h => ?_, divFin_roundsTo, fun h => ?_, roundFin_roundsTo, fun k hk => ?_⟩
  · rw [sub_eq_add_neg, ← finReal_not] at h ⊢
    exact addFin_roundsTo h
  · rw [finReal_mul] at h ⊢
    rw [mul_fin_fin]
    exact roundFin_roundsTo h
  · rw [finReal_mul] at h ⊢
    rw [fma_fin_fin_fin]
    exact addFin_roundsTo h
  · have hreal : finReal (decide (k < 0)) k.natAbs 0 = k := by rw [finReal_natAbs, zpow_zero, mul_one]
    rw [← hreal]
    exact roundFin_roundsTo (by rw [hreal]; exact_mod_cast hk)

/-- Settles O45: the root of the ratio is rounded. -/
theorem squareRootRoundsOnce : Obligations.SquareRootRoundsOnce := by
  unfold Obligations.SquareRootRoundsOnce
  intro t rm a x hx hpos
  obtain ⟨n, m, e, rfl, rfl⟩ := hx.exists_fin
  exact sqrt_roundsTo hpos

end
end Sys2Proof.Machine
end

section
/-! The fields of a pattern (47_f.md R805 to R807; 48_d.md R900): what a register's operand is, what its bits stand for,
and the class of a value (R812). -/

namespace Sys2Proof.Machine

section
variable {s : State} {t : Fmt} {p w bits : Nat}

/-! ### Registers -/

theorem unboxS_of_boxed {v : BitVec 64} (h : 0xFFFFFFFF00000000 ≤ v.toNat) :
    (unboxS v).toNat = v.toNat - 0xFFFFFFFF00000000 := by
  have hlt := v.isLt
  have hup : v.extractLsb' 32 32 = BitVec.allOnes 32 := by
    apply BitVec.eq_of_toNat_eq
    rw [BitVec.extractLsb'_toNat, Nat.shiftRight_eq_div_pow, BitVec.toNat_allOnes]
    omega
  rw [unboxS, if_pos hup, BitVec.toNat_setWidth]
  omega

theorem unboxS_of_not_boxed {v : BitVec 64} (h : v.toNat < 0xFFFFFFFF00000000) : unboxS v = 0x7FC00000#32 := by
  refine if_neg fun hup => ?_
  have hnat := congrArg BitVec.toNat hup
  rw [BitVec.extractLsb'_toNat, Nat.shiftRight_eq_div_pow, BitVec.toNat_allOnes] at hnat
  omega

/-! ### Fields -/

/-- The widths of the fraction and the exponent field of a format. -/
def Fmt.HasFields (t : Fmt) (p w : Nat) : Prop := t = .single ∧ p = 23 ∧ w = 8 ∨ t = .double ∧ p = 52 ∧ w = 11

theorem Fmt.HasFields.eqs (h : t.HasFields p w) :
    t.p = p + 1 ∧ t.signBit = p + w ∧ t.expMax = 2 ^ w - 1 ∧ t.emin = 1 - (2 ^ (w - 1) - 1) ∧
      t.canonNaN = (2 ^ w - 1) * 2 ^ p + 2 ^ (p - 1) ∧ 0 ≠ 2 ^ w - 1 := by
  rcases h with ⟨rfl, rfl, rfl⟩ | ⟨rfl, rfl, rfl⟩ <;> decide

/-- What the fields of a pattern stand for. -/
theorem value_of_fields (h : t.HasFields p w) (bits : Nat) : t.value bits =
    if bits / 2 ^ p % 2 ^ w = 2 ^ w - 1 then
      if bits % 2 ^ p = 0 then .inf (bits.testBit (p + w)) else .nan (!(bits % 2 ^ p).testBit (p - 1))
    else if bits / 2 ^ p % 2 ^ w = 0 then .fin (bits.testBit (p + w)) (bits % 2 ^ p) (1 - (2 ^ (w - 1) - 1) - p)
    else .fin (bits.testBit (p + w)) (2 ^ p + bits % 2 ^ p)
      ((bits / 2 ^ p % 2 ^ w : ℕ) - (2 ^ (w - 1) - 1) - p) := by
  obtain ⟨hp, hs, hM, hemin, -⟩ := h.eqs
  have hq : t.p - 2 = p - 1 := by omega
  have hw : 2 ^ w - 1 + 1 = 2 ^ w := Nat.sub_add_cancel Nat.one_le_two_pow
  have hexp : ∀ k : Int, 1 - (2 ^ (w - 1) - 1) - p + (k - 1) = k - (2 ^ (w - 1) - 1) - p := fun k => by ring
  rw [Fmt.value, hq, hp, hs, hM, hw, hemin]
  simp only [Nat.add_sub_cancel, Nat.cast_add, Nat.cast_one, add_sub_cancel_right, hexp]

theorem value_of_max_fields (h : t.HasFields p w) (he : bits / 2 ^ p % 2 ^ w = 2 ^ w - 1) :
    t.value bits =
      if bits % 2 ^ p = 0 then .inf (bits.testBit (p + w)) else .nan (!(bits % 2 ^ p).testBit (p - 1)) := by
  rw [value_of_fields h, if_pos he]

theorem value_of_finite_fields (h : t.HasFields p w) (he : bits / 2 ^ p % 2 ^ w ≠ 2 ^ w - 1) :
    ∃ m k, t.value bits = .fin (bits.testBit (p + w)) m k := by
  rw [value_of_fields h, if_neg he]
  split <;> exact ⟨_, _, rfl⟩

/-! ### NaNs -/

theorem isNaN_iff_fields (h : t.HasFields p w) (bits : Nat) :
    (t.value bits).isNaN = true ↔ bits / 2 ^ p % 2 ^ w = 2 ^ w - 1 ∧ bits % 2 ^ p ≠ 0 := by
  by_cases he : bits / 2 ^ p % 2 ^ w = 2 ^ w - 1
  · rw [value_of_max_fields h he]
    split <;> simp [FVal.isNaN, *]
  · obtain ⟨m, k, hv⟩ := value_of_finite_fields h he
    simp [hv, FVal.isNaN, he]

theorem isSNaN_iff_fields (h : t.HasFields p w) (bits : Nat) :
    (t.value bits).isSNaN = true ↔
      bits / 2 ^ p % 2 ^ w = 2 ^ w - 1 ∧ bits % 2 ^ p ≠ 0 ∧ (bits % 2 ^ p).testBit (p - 1) = false := by
  by_cases he : bits / 2 ^ p % 2 ^ w = 2 ^ w - 1
  · rw [value_of_max_fields h he]
    split
    · next h0 => simp [FVal.isSNaN, h0]
    · next h0 => rw [FVal.isSNaN, Bool.not_eq_true', and_iff_right he, and_iff_right h0]
  · obtain ⟨m, k, hv⟩ := value_of_finite_fields h he
    simp [hv, FVal.isSNaN, he]

/-! ### Numbers -/

/-- The value of a finite pattern, given its fields: the fraction alone with the least exponent, or below an implicit
one. -/
theorem real_of_fields (h : t.HasFields p w) (he : bits / 2 ^ p % 2 ^ w ≠ 2 ^ w - 1) :
    (bits / 2 ^ p % 2 ^ w = 0 → (t.value bits).Real
      ((if bits.testBit (p + w) then -1 else 1) * (bits % 2 ^ p : ℕ) * 2 ^ ((1 : ℤ) - (2 ^ (w - 1) - 1) - p))) ∧
    (bits / 2 ^ p % 2 ^ w ≠ 0 → (t.value bits).Real
      ((if bits.testBit (p + w) then -1 else 1) * (2 ^ p + (bits % 2 ^ p : ℕ)) *
        2 ^ ((bits / 2 ^ p % 2 ^ w : ℕ) - (2 ^ (w - 1) - 1) - p : ℤ))) := by
  rw [value_of_fields h, if_neg he]
  refine ⟨fun h0 => ?_, fun h0 => ?_⟩
  · rw [if_pos h0]
    rfl
  · rw [if_neg h0, FVal.real_fin, finReal]
    push_cast
    rfl

/-- Settles O41: the operand by the upper half, the value by the three fields. -/
theorem boxedSingles : Obligations.BoxedSingles := by
  unfold Obligations.BoxedSingles
  refine ⟨fun v r => ⟨unboxS_of_boxed, unboxS_of_not_boxed, boxS_toNat r⟩,
    fun s r => ⟨unboxS_of_boxed, unboxS_of_not_boxed, rfl, rfl, s.fflags_toNat⟩, fun t bits p w h => ?_,
    rfl, rfl, rfl, rfl, rfl⟩
  have hf : t.HasFields p w := h
  obtain ⟨hp, hs, hM, -, hcanon, hmax⟩ := hf.eqs
  refine ⟨isNaN_iff_fields hf bits, isSNaN_iff_fields hf bits, fun he h0 => ?_, value_of_finite_fields hf,
    fun h0 => (real_of_fields hf (h0 ▸ hmax)).1 h0, fun h0 he => (real_of_fields hf he).2 h0, hs, ?_, hcanon,
    fun sign mag => ?_⟩
  · rw [value_of_max_fields hf he, if_pos h0]
  · rw [Fmt.infBits, hM, hp, Nat.add_sub_cancel]
  · rw [Fmt.withSign, hs]
    cases sign <;> simp

/-! ### Classes -/

/-- The bit of a pattern's class, from its fields (47_f.md R812). -/
theorem classBit_of_fields (h : t.HasFields p w) (bits : Nat) : t.classBit (t.value bits) =
    if bits / 2 ^ p % 2 ^ w = 2 ^ w - 1 then
      if bits % 2 ^ p = 0 then (if bits.testBit (p + w) then 0 else 7)
      else if (bits % 2 ^ p).testBit (p - 1) then 9 else 8
    else if bits / 2 ^ p % 2 ^ w = 0 then
      if bits % 2 ^ p = 0 then (if bits.testBit (p + w) then 3 else 4) else if bits.testBit (p + w) then 2 else 5
    else if bits.testBit (p + w) then 1 else 6 := by
  have hp : t.p - 1 = p := by rw [h.eqs.1, Nat.add_sub_cancel]
  have hfrac : bits % 2 ^ p < 2 ^ p := Nat.mod_lt _ (Nat.two_pow_pos p)
  rw [value_of_fields h]
  split
  · split
    · rfl
    · cases (bits % 2 ^ p).testBit (p - 1) <;> rfl
  · split
    · simp only [Fmt.classBit, hp, hfrac, if_true]
    · simp [Fmt.classBit, hp]

theorem classBit_le (t : Fmt) (v : FVal) : t.classBit v ≤ 9 := by
  unfold Fmt.classBit
  split <;> split_ifs <;> decide

theorem yieldsX_of_classify {i : Instr} {rd : Reg} {v : FVal} {n : Nat}
    (h : exec i s = s.setX rd (BitVec.ofNat 64 (t.classify v)) 4) (hn : t.classBit v = n) :
    YieldsX i s rd (2 ^ n) 4 := by
  have hlt : t.classify v < 2 ^ 64 :=
    Nat.pow_lt_pow_right (by decide) ((classBit_le t v).trans_lt (by decide))
  refine yieldsX_of_setX h ?_
  rw [BitVec.toNat_ofNat, Nat.mod_eq_of_lt hlt, Fmt.classify, hn]
  push_cast
  rfl

/-- Settles O50: the bit set is that of the class, which is read off the fields. -/
theorem classResults : Obligations.ClassResults := by
  unfold Obligations.ClassResults
  intro s rd rs1 i bits p w h
  rcases h with ⟨rfl, rfl, rfl, rfl⟩ | ⟨rfl, rfl, rfl, rfl⟩
  · exact yieldsX_of_classify rfl (classBit_of_fields (t := .single) (.inl ⟨rfl, rfl, rfl⟩) _)
  · exact yieldsX_of_classify rfl (classBit_of_fields (t := .double) (.inr ⟨rfl, rfl, rfl⟩) _)

end
end Sys2Proof.Machine
end

section
/-! The order of numbers: comparisons of values as extended reals (47_f.md R811), and the order of patterns that FMIN
and FMAX go by (R810). -/

namespace Sys2Proof.Machine

section
variable {s : State} {i : Instr} {rd : Reg} {a b : FVal} {n na nb : Bool} {m ma mb : Nat} {e ea eb : Int} {x y : EReal}

/-! ### Values as extended reals -/

theorem FVal.extended_fin : (FVal.fin n m e).Extended x ↔ x = (finReal n m e : EReal) := Iff.rfl

theorem FVal.Extended.isNaN (h : a.Extended x) : a.isNaN = false := by
  cases a with
  | nan => exact h.elim
  | inf | fin => rfl

theorem FVal.Extended.isSNaN (h : a.Extended x) : a.isSNaN = false := by
  cases a with
  | nan => exact h.elim
  | inf | fin => rfl

theorem align_lt_iff :
    align na ma ea (min ea eb) < align nb mb eb (min ea eb) ↔ finReal na ma ea < finReal nb mb eb := by
  rw [← align_mul (min_le_left ea eb), ← align_mul (min_le_right ea eb), mul_lt_mul_iff_left₀ (by positivity),
    Int.cast_lt]

theorem align_eq_iff :
    align na ma ea (min ea eb) = align nb mb eb (min ea eb) ↔ finReal na ma ea = finReal nb mb eb := by
  rw [← align_mul (min_le_left ea eb), ← align_mul (min_le_right ea eb), mul_left_inj' (by positivity), Int.cast_inj]

theorem lt_iff_of_extended (ha : a.Extended x) (hb : b.Extended y) : a.lt b = true ↔ x < y := by
  cases a with
  | nan => exact ha.elim
  | inf na =>
    cases b with
    | nan => exact hb.elim
    | inf nb =>
      rw [show x = _ from ha, show y = _ from hb]
      cases na <;> cases nb <;> simp [FVal.lt]
    | fin nb mb eb =>
      rw [show x = _ from ha, FVal.extended_fin.mp hb]
      cases na <;> simp [FVal.lt, EReal.bot_lt_coe]
  | fin na ma ea =>
    cases b with
    | nan => exact hb.elim
    | inf nb =>
      rw [FVal.extended_fin.mp ha, show y = _ from hb]
      cases nb <;> simp [FVal.lt, EReal.coe_lt_top]
    | fin nb mb eb =>
      rw [FVal.extended_fin.mp ha, FVal.extended_fin.mp hb, EReal.coe_lt_coe_iff, ← align_lt_iff]
      exact decide_eq_true_iff

theorem eq_iff_of_extended (ha : a.Extended x) (hb : b.Extended y) : a.eq b = true ↔ x = y := by
  cases a with
  | nan => exact ha.elim
  | inf na =>
    cases b with
    | nan => exact hb.elim
    | inf nb =>
      rw [show x = _ from ha, show y = _ from hb]
      cases na <;> cases nb <;> simp [FVal.eq]
    | fin nb mb eb =>
      rw [show x = _ from ha, FVal.extended_fin.mp hb]
      cases na <;> simp [FVal.eq]
  | fin na ma ea =>
    cases b with
    | nan => exact hb.elim
    | inf nb =>
      rw [FVal.extended_fin.mp ha, show y = _ from hb]
      cases nb <;> simp [FVal.eq]
    | fin nb mb eb =>
      rw [FVal.extended_fin.mp ha, FVal.extended_fin.mp hb, EReal.coe_eq_coe_iff, ← align_eq_iff]
      exact decide_eq_true_iff

theorem lt_of_isNaN (h : a.isNaN = true ∨ b.isNaN = true) : a.lt b = false := by
  unfold FVal.lt
  split
  case h_5 => rfl
  all_goals simp [FVal.isNaN] at h

theorem eq_of_isNaN (h : a.isNaN = true ∨ b.isNaN = true) : a.eq b = false := by
  unfold FVal.eq
  split
  case h_3 => rfl
  all_goals simp [FVal.isNaN] at h

/-! ### Comparisons -/

/-- A comparison completes with the bit of its relation, whose flags are those of its NaN operands. -/
theorem compares_of_setCmp {c : Bool} {fl nanFlags : FFlags} {rel : EReal → EReal → Prop}
    (h : exec i s = s.setCmp rd { bits := if c then 1 else 0, flags := fl })
    (hnan : a.isNaN = true ∨ b.isNaN = true → c = false ∧ fl = nanFlags)
    (hrel : ∀ x y, a.Extended x → b.Extended y → (c = true ↔ rel x y) ∧ fl = 0#5) :
    Compares i s rd a b rel nanFlags := by
  refine ⟨fun hab => ?_, fun x y hx hy => ?_⟩
  · obtain ⟨rfl, rfl⟩ := hnan hab
    exact yieldsXFlags_of_flags h rfl
  · obtain ⟨hc, rfl⟩ := hrel x y hx hy
    refine ⟨fun hr => ?_, fun hr => ?_⟩
    · obtain rfl := hc.mpr hr
      exact yieldsXFlags_of_flags h rfl
    · obtain rfl := Bool.eq_false_iff.mpr fun h' => hr (hc.mp h')
      exact yieldsXFlags_of_flags h rfl

theorem compares_feq (h : exec i s = s.setCmp rd (feq a b)) :
    Compares i s rd a b (· = ·) (flagIf (a.isSNaN || b.isSNaN) flagNV) :=
  compares_of_setCmp h (fun hab => ⟨eq_of_isNaN hab, rfl⟩)
    fun _ _ hx hy => ⟨eq_iff_of_extended hx hy, by rw [hx.isSNaN, hy.isSNaN]; rfl⟩

/-- A signaling comparison: NV for any NaN, and no flag for numbers. -/
theorem flags_signaling (hx : a.Extended x) (hy : b.Extended y) : flagIf (a.isNaN || b.isNaN) flagNV = 0#5 := by
  rw [hx.isNaN, hy.isNaN]
  rfl

theorem flags_signaling_of_isNaN (h : a.isNaN = true ∨ b.isNaN = true) : flagIf (a.isNaN || b.isNaN) flagNV = flagNV :=
  if_pos (Bool.or_eq_true_iff.mpr h)

theorem compares_flt (h : exec i s = s.setCmp rd (flt a b)) : Compares i s rd a b (· < ·) flagNV :=
  compares_of_setCmp h (fun hab => ⟨lt_of_isNaN hab, flags_signaling_of_isNaN hab⟩)
    fun _ _ hx hy => ⟨lt_iff_of_extended hx hy, flags_signaling hx hy⟩

theorem compares_fle (h : exec i s = s.setCmp rd (fle a b)) : Compares i s rd a b (· ≤ ·) flagNV :=
  compares_of_setCmp h
    (fun hab => ⟨by rw [lt_of_isNaN hab, eq_of_isNaN hab]; rfl, flags_signaling_of_isNaN hab⟩)
    fun _ _ hx hy => ⟨by rw [Bool.or_eq_true, lt_iff_of_extended hx hy, eq_iff_of_extended hx hy, le_iff_lt_or_eq],
      flags_signaling hx hy⟩

/-- Settles O49: each form compares the values of its operands. -/
theorem compareResults : Obligations.CompareResults := by
  unfold Obligations.CompareResults
  exact fun s rd rs1 rs2 => ⟨compares_feq rfl, compares_flt rfl, compares_fle rfl, compares_feq rfl, compares_flt rfl,
    compares_fle rfl⟩

end

section
variable {t : Fmt} {a b mag mag' : Nat} {x y : EReal}

/-! ### The order of patterns -/

/-- The extended real a magnitude up to ∞ encodes. -/
noncomputable def Fmt.magReal (t : Fmt) (mag : Nat) : EReal :=
  if mag < t.infBits then ((t.unitsOf mag * 2 ^ t.unitExp : ℝ) : EReal) else ⊤

theorem Fmt.magReal_nonneg (t : Fmt) (mag : Nat) : 0 ≤ t.magReal mag := by
  unfold Fmt.magReal
  split
  · exact EReal.coe_nonneg.mpr (by positivity)
  · exact le_top

theorem Fmt.magReal_lt (h : mag < mag') (h' : mag' ≤ t.infBits) : t.magReal mag < t.magReal mag' := by
  rw [Fmt.magReal, if_pos (h.trans_le h'), Fmt.magReal]
  split
  · rw [EReal.coe_lt_coe_iff, mul_lt_mul_iff_left₀ (by positivity), Nat.cast_lt]
    exact t.unitsOf_strictMono h
  · exact EReal.coe_lt_top _

/-- The extended real of a pattern is that of its magnitude, under its sign. -/
theorem extended_of_bits (h : (t.value a).Extended x) : a % 2 ^ t.signBit ≤ t.infBits ∧
    x = if a.testBit t.signBit then -t.magReal (a % 2 ^ t.signBit) else t.magReal (a % 2 ^ t.signBit) := by
  rcases lt_trichotomy (a % 2 ^ t.signBit) t.infBits with hlt | heq | hgt
  · obtain ⟨m, e, hv, hme⟩ := Fmt.value_of_lt hlt
    rw [hv, FVal.extended_fin, finReal, mul_assoc, hme] at h
    rw [h, Fmt.magReal, if_pos hlt]
    refine ⟨hlt.le, ?_⟩
    split <;> simp
  · rw [Fmt.value_of_eq heq] at h
    rw [show x = _ from h, Fmt.magReal, if_neg heq.not_lt, EReal.neg_top]
    exact ⟨heq.le, rfl⟩
  · exact absurd (Fmt.value_of_gt hgt) (by simp [h.isNaN])

/-- The pattern of the smaller number, or of a negative one of two equal numbers, comes first. -/
theorem orderKey_le (ha : (t.value a).Extended x) (hb : (t.value b).Extended y)
    (h : x < y ∨ x = y ∧ a.testBit t.signBit = true) : t.orderKey a ≤ t.orderKey b := by
  obtain ⟨hma, rfl⟩ := extended_of_bits ha
  obtain ⟨hmb, rfl⟩ := extended_of_bits hb
  unfold Fmt.orderKey
  by_contra hlt
  rw [not_le] at hlt
  cases hna : a.testBit t.signBit <;> cases hnb : b.testBit t.signBit <;>
    simp only [hna, hnb, Bool.false_eq_true, if_false, if_true, and_false, or_false, and_true] at h hlt
  · exact lt_asymm h (Fmt.magReal_lt (by omega) hma)
  · exact h.not_ge ((EReal.neg_le_zero.mpr (t.magReal_nonneg _)).trans (t.magReal_nonneg _))
  · omega
  · have hmag : t.magReal (a % 2 ^ t.signBit) < t.magReal (b % 2 ^ t.signBit) := Fmt.magReal_lt (by omega) hmb
    have hgt := EReal.neg_lt_neg_iff.mpr hmag
    exact h.elim (fun h => lt_asymm h hgt) fun h => hgt.ne' h

theorem orderKey_injective (ha : a < 2 ^ (t.signBit + 1)) (hb : b < 2 ^ (t.signBit + 1))
    (h : t.orderKey a = t.orderKey b) : a = b := by
  unfold Fmt.orderKey at h
  rw [← Fmt.withSign_of_bits ha, ← Fmt.withSign_of_bits hb]
  cases hna : a.testBit t.signBit <;> cases hnb : b.testBit t.signBit <;>
    simp only [hna, hnb, Bool.false_eq_true, if_false, if_true] at h
  · rw [show a % 2 ^ t.signBit = b % 2 ^ t.signBit by omega]
  · omega
  · omega
  · rw [show a % 2 ^ t.signBit = b % 2 ^ t.signBit by omega]

/-! ### The operand FMIN and FMAX take -/

/-- NV when an operand of FMIN or FMAX is a signaling NaN, and no other flag (47_f.md R810). -/
def Fmt.pickFlags (t : Fmt) (a b : Nat) : FFlags := flagIf ((t.value a).isSNaN || (t.value b).isSNaN) flagNV

section
variable (first : Bool)

theorem pick_of_nan_of_nan (ha : (t.value a).isNaN = true) (hb : (t.value b).isNaN = true) :
    t.pick first a b = { bits := t.canonNaN, flags := t.pickFlags a b } := by
  simp [Fmt.pick, Fmt.pickFlags, ha, hb]

theorem pick_of_nan_of_num (ha : (t.value a).isNaN = true) (hb : (t.value b).isNaN = false) :
    t.pick first a b = { bits := b, flags := t.pickFlags a b } := by
  simp [Fmt.pick, Fmt.pickFlags, ha, hb]

theorem pick_of_num_of_nan (ha : (t.value a).isNaN = false) (hb : (t.value b).isNaN = true) :
    t.pick first a b = { bits := a, flags := t.pickFlags a b } := by
  simp [Fmt.pick, Fmt.pickFlags, ha, hb]

theorem pick_of_num_of_num (ha : (t.value a).isNaN = false) (hb : (t.value b).isNaN = false) :
    t.pick first a b = { bits := if first then a else b, flags := t.pickFlags a b } := by
  simp [Fmt.pick, Fmt.pickFlags, ha, hb]

end

section
variable (ha : (t.value a).Extended x) (hb : (t.value b).Extended y) (hla : a < 2 ^ (t.signBit + 1))
  (hlb : b < 2 ^ (t.signBit + 1))
include ha hb hla hlb

/-- The first operand is the smaller: where the orders are equal, so are the patterns. -/
theorem min_max_of_first (h : x < y ∨ x = y ∧ a.testBit t.signBit = true) :
    t.min a b = { bits := a, flags := t.pickFlags a b } ∧ t.max a b = { bits := b, flags := t.pickFlags a b } := by
  have hle := orderKey_le ha hb h
  have hpick : ∀ first, t.pick first a b = _ := fun first => pick_of_num_of_num first ha.isNaN hb.isNaN
  rw [Fmt.min, Fmt.max, hpick, hpick, decide_eq_true hle]
  refine ⟨rfl, ?_⟩
  split
  · next hge => rw [orderKey_injective hla hlb (le_antisymm hle (of_decide_eq_true hge))]
  · rfl

theorem min_max_of_second (h : y < x ∨ x = y ∧ b.testBit t.signBit = true) :
    t.min a b = { bits := b, flags := t.pickFlags a b } ∧ t.max a b = { bits := a, flags := t.pickFlags a b } := by
  have hle := orderKey_le hb ha (h.imp_right fun h => ⟨h.1.symm, h.2⟩)
  have hpick : ∀ first, t.pick first a b = _ := fun first => pick_of_num_of_num first ha.isNaN hb.isNaN
  rw [Fmt.min, Fmt.max, hpick, hpick, decide_eq_true hle]
  refine ⟨?_, rfl⟩
  split
  · next hge => rw [orderKey_injective hlb hla (le_antisymm hle (of_decide_eq_true hge))]
  · rfl

/-- Two equal numbers of positive sign are the same pattern. -/
theorem eq_of_extended_eq (h : x = y) (hna : a.testBit t.signBit = false) (hnb : b.testBit t.signBit = false) :
    a = b := by
  obtain ⟨hma, hx⟩ := extended_of_bits ha
  obtain ⟨hmb, hy⟩ := extended_of_bits hb
  rw [h, hy, hna, hnb] at hx
  rw [← Fmt.withSign_of_bits hla, ← Fmt.withSign_of_bits hlb, hna, hnb]
  congr 1
  rcases lt_trichotomy (a % 2 ^ t.signBit) (b % 2 ^ t.signBit) with hlt | heq | hgt
  · exact absurd hx (Fmt.magReal_lt hlt hmb).ne'
  · exact heq
  · exact absurd hx (Fmt.magReal_lt hgt hma).ne

end

/-- Settles O48: FMIN and FMAX take an operand by the order of patterns, which is the order of the numbers with −0 below
+0. -/
theorem minMaxResults : Obligations.MinMaxResults := by
  unfold Obligations.MinMaxResults
  intro s rd rs1 rs2 t box a b iMin iMax h
  obtain ⟨hla, hlb, hMin, hMax⟩ : a < 2 ^ (t.signBit + 1) ∧ b < 2 ^ (t.signBit + 1) ∧
      YieldsF iMin s rd (box (t.min a b).bits) (t.min a b).flags 4 ∧
      YieldsF iMax s rd (box (t.max a b).bits) (t.max a b).flags 4 := by
    rcases h with ⟨rfl, rfl, rfl, rfl, rfl, rfl⟩ | ⟨rfl, rfl, rfl, rfl, rfl, rfl⟩
    · exact ⟨(s.readS rs1).isLt, (s.readS rs2).isLt, yieldsF_of_flags rfl, yieldsF_of_flags rfl⟩
    · exact ⟨(s.readF rs1).isLt, (s.readF rs2).isLt, yieldsF_of_flags rfl, yieldsF_of_flags rfl⟩
  clear h
  have hboth : ∀ n m, t.min a b = { bits := n, flags := t.pickFlags a b } ∧
      t.max a b = { bits := m, flags := t.pickFlags a b } →
      YieldsF iMin s rd (box n) (t.pickFlags a b) 4 ∧ YieldsF iMax s rd (box m) (t.pickFlags a b) 4 := by
    rintro n m ⟨hn, hm⟩
    rw [hn] at hMin
    rw [hm] at hMax
    exact ⟨hMin, hMax⟩
  refine ⟨fun ha hb => hboth _ _ ⟨pick_of_nan_of_nan _ ha hb, pick_of_nan_of_nan _ ha hb⟩,
    fun ha hb => hboth _ _ ⟨pick_of_nan_of_num _ ha hb, pick_of_nan_of_num _ ha hb⟩,
    fun ha hb => hboth _ _ ⟨pick_of_num_of_nan _ ha hb, pick_of_num_of_nan _ ha hb⟩, fun x y ha hb => ?_⟩
  refine ⟨fun h => hboth _ _ (min_max_of_first ha hb hla hlb h), fun h => hboth _ _ (min_max_of_second ha hb hla hlb h),
    fun hxy hna hnb => ?_⟩
  obtain rfl := eq_of_extended_eq ha hb hla hlb hxy hna hnb
  refine ⟨rfl, hboth _ _ ?_⟩
  simp [Fmt.min, Fmt.max, pick_of_num_of_num _ ha.isNaN ha.isNaN]

end
end Sys2Proof.Machine
end

section
/-! The conversions to integer (47_f.md R813, R836, R837, R846, R847; 48_d.md R923, R924, R927, R928): the operand
rounded to an integer once, then saturated. -/

namespace Sys2Proof.Machine

variable {s : State} {i : Instr} {rd : Reg} {rm : BitVec 3} {m : RoundingMode} {bits : Word} {a : FVal} {r : IntRange}
  {neg : Bool} {k : Nat} {e v : Int} {isExact : Bool}

/-! ### Saturation -/

theorem clamp_of_gt (hr : r.lo ≤ r.hi) (h : r.hi < v) : r.clamp v isExact = { value := r.hi, flags := flagNV } := by
  rw [IntRange.clamp, if_neg (by omega), if_pos h]

theorem clamp_of_lt (h : v < r.lo) : r.clamp v isExact = { value := r.lo, flags := flagNV } := if_pos h

theorem clamp_of_mem (hlo : r.lo ≤ v) (hhi : v ≤ r.hi) :
    r.clamp v isExact = { value := v, flags := flagIf (!isExact) flagNX } := by
  rw [IntRange.clamp, if_neg (by omega), if_neg (by omega)]

/-! ### The rounded operand -/

/-- The integer a number rounds to, and whether it is the number. -/
theorem toInt_fin (r : IntRange) {n : ℤ} (h : m.Rounds (finReal neg k e) n) :
    ∃ isExact, (FVal.fin neg k e).toInt r m = r.clamp n isExact ∧ (isExact = true ↔ finReal neg k e = n) := by
  have hwf := dyadic_wf k e
  have hreal : (dyadic k e).real / 2 ^ (0 : Int) = k * 2 ^ e := by rw [zpow_zero, div_one, dyadic_real]
  have hrounds := Mag.roundAt_rounds hwf m neg 0
  rw [hreal, ← mul_assoc] at hrounds
  have hn : signedInt neg ((dyadic k e).roundAt m neg 0).1 = n := RoundingMode.Rounds.unique hrounds h
  refine ⟨((dyadic k e).roundAt m neg 0).2, by rw [← hn]; rfl, ?_⟩
  have hs : (if neg then -1 else 1 : ℝ) ≠ 0 := by cases neg <;> norm_num
  rw [Mag.roundAt_exact_iff hwf, hreal, ← hn, signedInt_cast, finReal, mul_assoc, mul_right_inj' hs]

/-- A conversion that completes with the saturated rounding converts to an integer. -/
theorem convertsToInt_of_toInt {wrap : Int → Int} (hr : r.lo ≤ r.hi)
    (h : YieldsXFlags i s rd (wrap (a.toInt r m).value) (a.toInt r m).flags) :
    ConvertsToInt i s rd a m r.lo r.hi wrap := by
  refine ⟨fun ha => ?_, fun ha => ?_, fun ha => ?_, fun x n hx hn => ?_⟩
  · cases a with
    | nan => exact h
    | inf | fin => cases ha
  · exact (ha ▸ h :)
  · exact (ha ▸ h :)
  · obtain ⟨neg, k, e, rfl, rfl⟩ := hx.exists_fin
    obtain ⟨isExact, heq, hexact⟩ := toInt_fin r hn
    rw [heq] at h
    refine ⟨fun hgt => ?_, fun hlt => ?_, fun hlo hhi hx => ?_, fun hlo hhi hx => ?_⟩
    · rwa [clamp_of_gt hr hgt] at h
    · rwa [clamp_of_lt hlt] at h
    · rwa [clamp_of_mem hlo hhi, hexact.mpr hx] at h
    · rwa [clamp_of_mem hlo hhi, Bool.eq_false_iff.mpr (mt hexact.mp hx)] at h

/-! ### Completion -/

theorem convertsToInt_32 (hr : r.lo ≤ r.hi) (hm : s.roundingMode rm = some m)
    (h : exec i s = s.withRounding rm bits fun m => s.setInt32 rd (a.toInt r m)) :
    ConvertsToInt i s rd a m r.lo r.hi sext32Int := by
  refine convertsToInt_of_toInt hr (yieldsXFlags_of_flags (h.trans (State.withRounding_of_some hm)) ?_)
  rw [Xlen.sext_toNat _ _ (by decide), BitVec.toInt_ofInt]
  exact Int.emod_emod ..

theorem convertsToInt_64 (hr : r.lo ≤ r.hi) (hm : s.roundingMode rm = some m)
    (h : exec i s = s.withRounding rm bits fun m => s.setInt64 rd (a.toInt r m)) :
    ConvertsToInt i s rd a m r.lo r.hi id := by
  refine convertsToInt_of_toInt hr (yieldsXFlags_of_flags (h.trans (State.withRounding_of_some hm)) ?_)
  rw [natCast_toNat_ofInt]
  exact Int.emod_emod_of_dvd _ (Int.natCast_dvd_natCast.mpr s.cfg.xlen.size_dvd)

/-- Settles O53: each form rounds its operand and saturates the integer to its own range. -/
theorem toIntegerResults : Obligations.ToIntegerResults := by
  unfold Obligations.ToIntegerResults
  intro s rd rs1 rm m hm
  exact ⟨convertsToInt_32 (r := rangeW) (by decide) hm rfl, convertsToInt_32 (r := rangeWu) (by decide) hm rfl,
    convertsToInt_32 (r := rangeW) (by decide) hm rfl, convertsToInt_32 (r := rangeWu) (by decide) hm rfl, fun _ =>
    ⟨convertsToInt_64 (r := rangeL) (by decide) hm rfl, convertsToInt_64 (r := rangeLu) (by decide) hm rfl,
      convertsToInt_64 (r := rangeL) (by decide) hm rfl, convertsToInt_64 (r := rangeLu) (by decide) hm rfl⟩⟩

end Sys2Proof.Machine
end
